-- ==== Sys2Proof/Word.lean ====
section
/-! DEFINITION. The widths of the block: a byte, a bus word and a host register. -/

namespace Sys2Proof

/-- A command, address, status, identity or feature byte. -/
abbrev Byte := BitVec 8

/-- One bus word, held in 16 bits; on an 8-bit bus its upper byte is 0 (R115, R70). -/
abbrev Word := BitVec 16

/-- One 32-bit host register (R20). -/
abbrev Reg := BitVec 32

end Sys2Proof
end

