-- ==== Sys2Proof/Config.lean ====
section
/-! DEFINITION. The configuration of the block (R11 to R13) and the free values the spec leaves open. -/

namespace Sys2Proof

/-- PLANE_MODE (R12): which row bit selects the plane. -/
inductive PlaneMode where
  | traditional
  | onfi
deriving DecidableEq, Repr

/-- RB_SOURCE (R12, R150): how readiness is observed. -/
inductive RbSource where
  | statusReg
  | rbPin
deriving DecidableEq, Repr

/-- The parameters of R12, one field each, "fixed at reset and never changes during operation" (R11).
DEDUCED (log 9): the delays and THR_FLASH are 32-bit numbers because they are loaded into the 32-bit
register tmr.thr (R41, R152, R153). -/
structure Config where
  /-- BUS_WIDTH, 8 or 16. -/
  busWidth : Nat
  /-- ADDR_CONVERT. -/
  addrConvert : Bool
  /-- ROW_SHIFT. -/
  rowShift : Nat
  /-- ROW_CYCLES, 2 or 3. -/
  rowCycles : Nat
  /-- ID_BYTES, 4, 5 or 6. -/
  idBytes : Nat
  /-- EXPECTED_ID, ID_BYTES bytes, first byte read first. -/
  expectedId : List Byte
  /-- PLANE_MODE. -/
  planeMode : PlaneMode
  /-- PLANE_BIT_TRAD. -/
  planeBitTrad : Nat
  /-- PLANE_BIT_ONFI. -/
  planeBitOnfi : Nat
  /-- PAGE_DATA_WORDS. -/
  pageDataWords : Nat
  /-- SPARE_WORDS. -/
  spareWords : Nat
  /-- INCLUDE_SPARE. -/
  includeSpare : Bool
  /-- PAGES_PER_BLOCK. -/
  pagesPerBlock : Nat
  /-- BUF_WORDS. -/
  bufWords : Nat
  /-- RB_SOURCE. -/
  rbSource : RbSource
  /-- READY_BIT, 6 or 7. -/
  readyBit : Nat
  /-- TICKS_PER_US. -/
  ticksPerUs : Nat
  /-- T_R. -/
  tR : BitVec 32
  /-- T_RCBSY. -/
  tRcbsy : BitVec 32
  /-- T_DBSY. -/
  tDbsy : BitVec 32
  /-- T_CBSY. -/
  tCbsy : BitVec 32
  /-- T_FEAT_GET. -/
  tFeatGet : BitVec 32
  /-- POLL_INTERVAL. -/
  pollInterval : Nat
  /-- THR_FLASH, in polls. -/
  thrFlash : BitVec 32
  /-- RETRY_MAX. -/
  retryMax : Nat
  /-- READ_VERIFY. -/
  readVerify : Bool
  /-- WRITE_VERIFY. -/
  writeVerify : Bool
  /-- BAD_LOG_DEPTH. -/
  badLogDepth : Nat
  /-- HAS_ENH_STATUS. -/
  hasEnhStatus : Bool
  /-- ENH_STATUS_CMD. -/
  enhStatusCmd : Byte
deriving DecidableEq, Repr

/-- PAGE_WORDS (R13). -/
def Config.pageWords (c : Config) : Nat := c.pageDataWords + c.spareWords

/-- REC_WORDS (R13). -/
def Config.recWords (c : Config) : Nat := c.pageDataWords + (if c.includeSpare then c.spareWords else 0)

/-- COL_WIDTH (R13). -/
def Config.colWidth (c : Config) : Nat := c.rowShift

/-- A configuration is well formed only if every parameter is in its range (R12) and R13's constraints
hold; "a model refuses any other configuration" (R13). -/
def Config.wf (c : Config) : Bool :=
  (c.busWidth == 8 || c.busWidth == 16)
  && (1 ≤ c.rowShift && c.rowShift ≤ 16)
  && (c.rowCycles == 2 || c.rowCycles == 3)
  && (4 ≤ c.idBytes && c.idBytes ≤ 6 && c.expectedId.length == c.idBytes)
  && (c.planeBitTrad < 8 * c.rowCycles && c.planeBitOnfi < 8 * c.rowCycles)
  && (1 ≤ c.pagesPerBlock && c.pagesPerBlock &&& (c.pagesPerBlock - 1) == 0)
  && (c.recWords ≤ c.pageWords && c.pageWords ≤ c.bufWords && c.bufWords ≤ 65536)
  && (c.readyBit == 6 || c.readyBit == 7)
  && (1 ≤ c.ticksPerUs && 1 ≤ c.pollInterval)
  && (c.retryMax ≤ 6 && 1 ≤ c.badLogDepth)

/-- Profile P0 (R12, 95_test_vectors.md). "P0 is not a claim about any device". -/
def Config.p0 : Config where
  busWidth := 8
  addrConvert := true
  rowShift := 13
  rowCycles := 3
  idBytes := 5
  expectedId := [0x11#8, 0x22#8, 0x33#8, 0x44#8, 0x55#8]
  planeMode := .onfi
  planeBitTrad := 6
  planeBitOnfi := 6
  pageDataWords := 4096
  spareWords := 256
  includeSpare := true
  pagesPerBlock := 64
  bufWords := 4352
  rbSource := .statusReg
  readyBit := 6
  ticksPerUs := 1
  tR := 25#32
  tRcbsy := 5#32
  tDbsy := 1#32
  tCbsy := 3#32
  tFeatGet := 1#32
  pollInterval := 1
  thrFlash := 3#32
  retryMax := 5
  readVerify := true
  writeVerify := false
  badLogDepth := 16
  hasEnhStatus := true
  enhStatusCmd := 0x78#8

/-- FREE VALUE (log 3): the device's n-th answer, where the environment's list of answers has run out.
Every value the device returns is a draw (R8). -/
opaque Config.freeAnswer : Nat → BitVec 16

/-- FREE VALUE (log 4): a word of buffer A that nothing has written since reset (R52: "a model treats a
read of it as a draw"). First argument: the reading event, second: the word's index. -/
opaque Config.freeWordA : Nat → Nat → BitVec 16

/-- FREE VALUE (log 4): a word of buffer C that nothing has written since reset (R52). -/
opaque Config.freeWordC : Nat → Nat → BitVec 16

/-- FREE VALUE (log 5): what a refused host read of BUF_PTR returns; R53 states no value. -/
opaque Config.freeHostWord : Nat → BitVec 32

end Sys2Proof
end

