-- ==== Sys2Proof/Machine/State.lean ====
section
/-! DEFINITION. The state of the block as plain data, its reset, and the reasons a step stops. -/

namespace Sys2Proof.Machine

/-- The bus direction (R48): IN leaves IO to the device, OUT drives it. -/
inductive Dir where
  | inn
  | out
deriving DecidableEq, Repr

/-- One event of the bus event trace (R140). -/
inductive Event where
  /-- `C:hh` -/
  | cmd (c : Byte)
  /-- `A:hh` -/
  | addr (b : Byte)
  /-- `W:hh` -/
  | wr (w : Word)
  /-- `R:hh`, w the drawn value -/
  | rd (w : Word)
  /-- `>O`, `>I` -/
  | dir (d : Dir)
  /-- `D(t)` -/
  | delay (t : BitVec 32)
  /-- `P(rb)` -/
  | pin (rb : Bool)
deriving DecidableEq, Repr

/-- The result codes (R130); the encodings 9 to 15 are never written. -/
inductive Result where
  | success
  | busy
  | operationTimeout
  | programFailed
  | eraseFailed
  | readIdFailed
  | invalidCommand
  | invalidData
  | invalidAddress
deriving DecidableEq, Repr

/-- The session register (R40); the encodings 5 to 7 are never written. -/
inductive Session where
  | none
  | rprog
  | cread
  | plane1Prog
  | plane1Erase
deriving DecidableEq, Repr

/-- bulk.mode (R42). -/
inductive BulkMode where
  | none
  | read
  | write
  | erase
deriving DecidableEq, Repr

/-- bulk.phase (R42). -/
inductive Phase where
  | capture
  | fill
  | validate
  | execute
  | verify
  | drain
  | advance
deriving DecidableEq, Repr

/-- Where the retry controller stands in the pseudocode of R262 and R263. -/
inductive RetryPt where
  /-- before the capture's Issue(READ_ID) (R262) -/
  | capture
  /-- after it: the comparison with EXPECTED_ID (R262) -/
  | captured
  /-- the head of the unit loop (R263) -/
  | loopHead
  /-- the hold of Fill (R272) -/
  | fillHold
  /-- the start of an attempt: before Validate's Issue(READ_ID) (R264) -/
  | validate
  /-- after it: the comparison with the captured identity (R264) -/
  | validated
  /-- before Execute's Issue (R267) -/
  | execute
  /-- after it: CheckResult (R267, R268) -/
  | executed
  /-- after the verify read: the comparison of A and C (R268) -/
  | verified
  /-- the hold of Drain (R273) -/
  | drainHold
  /-- Advance (R271) -/
  | advance
  /-- `finish:` (R263, R275) -/
  | finish
deriving DecidableEq, Repr

/-- A micro-operation whose only control effect is to move on to the next one. -/
inductive Act where
  /-- SetDir(d) (R141) -/
  | setDir (d : Dir)
  /-- the command cycle of Cmd(c) (R111, R142) -/
  | cmd (c : Byte)
  /-- the address cycle of Addr(b) (R112, R143) -/
  | addr (b : Byte)
  /-- the data write cycle of WrData(zext b) (R113, R115, R144) -/
  | wrByte (b : Byte)
  /-- the data write cycle of WrData(MemRead(wcnt, 1)) (R149) -/
  | wrBuf
  /-- the data read cycle of MemWrite(wcnt, 1, RdData()) (R149) -/
  | rdBufA
  /-- the data read cycle of CWrite(wcnt, RdData()) (R149) -/
  | rdBufC
  /-- the data read cycle of id[i] or b[i] <- RdData()[7:0] (R170, R173) -/
  | rdByte (i : Nat)
  /-- the data read cycle of a status byte (R149, R172) -/
  | rdStatus
  /-- the R/B# sample (R150) -/
  | samplePin
  /-- wcnt <- 0, the start of a run of data cycles (R38) -/
  | clearWcnt
  /-- tmr.cnt <- 0; tmr.thr <- THR_FLASH (R153) -/
  | loadTimer
  /-- Delay(t) (R152) -/
  | delay (t : BitVec 32)
  /-- session <- x (R40) -/
  | setSession (x : Session)
  /-- ID_LO, ID_HI from id[] (R170) -/
  | storeId
  /-- FDATA from b[] (R173) -/
  | storeFeature
deriving DecidableEq, Repr

/-- A micro-operation of the sequencer (R9, R36). -/
inductive Micro where
  | act (a : Act)
  /-- the checks of R310, "one micro-operation that appends no bus event" -/
  | check
  /-- raise r if the ready observation just made showed busy (R151, the operations' timeout lines) -/
  | raiseUnlessReady (r : Result)
  /-- raise r if the status byte just read has bit 0 = 1 (R216) -/
  | raiseIfFailed (r : Result)
  /-- the loop line of WaitReady: leave it, or idle and sample again (R153) -/
  | pollAgain
  /-- the start of a bulk run (R261) -/
  | startBulk (m : BulkMode)
deriving DecidableEq, Repr

/-- The sequencer state (R36): IDLE, or EXEC(op, k). k is held as the micro-operations still to perform;
an empty k is the end of the operation's pseudocode. While the retry controller is the agent to move
(R7), k is its point in R263's loop. -/
inductive Pc where
  | idle
  | exec (op : Byte) (k : List Micro)
  | bulk (p : RetryPt)
deriving DecidableEq, Repr

/-- The latched request (R37); cur.len is 17 bits (R104). -/
structure Cur where
  op : Byte
  l : Bool
  addr : Reg
  len : BitVec 17
  faddr : Byte
  fdata : Reg
deriving DecidableEq, Repr

/-- The host registers a host writes (R21); reserved bits are not stored (R20). -/
structure HostRegs where
  ctrlOp : Byte
  ctrlL : Bool
  addr : Reg
  len : BitVec 16
  faddr : Byte
  fdata : Reg
  bufPtr : BitVec 16
  wpctl : Bool
  bulkStart : Reg
  bulkCount : Reg
deriving DecidableEq, Repr

/-- The fields of STATUS (R27). -/
structure StatusReg where
  busy : Bool
  done : Bool
  ovr : Bool
  result : Result
  lastSr : Byte
  session : Session
  idcap : Bool
deriving DecidableEq, Repr

/-- The identity registers (R31, R43). -/
structure IdRegs where
  idLo : Reg
  idHi : Reg
  capLo : Reg
  capHi : Reg
deriving DecidableEq, Repr

/-- The retry controller's registers (R35, R42, R44 to R46). -/
structure Bulk where
  mode : BulkMode
  unit : Reg
  left : Reg
  count : Reg
  unitsDone : Reg
  fails : BitVec 3
  phase : Phase
  lastResult : Result
  progress : Byte
  active : Bool
  streamReq : Bool
  streamDir : Bool
  abortReq : Bool
  aborted : Bool
  badCount : Reg
  badLog : List Reg
  idRetries : Reg
deriving DecidableEq, Repr

/-- The sequencer's registers (R36 to R41). `resume` is the retry controller's point after its Issue
(R300), none while no internal operation runs; `obs` and `tmp` are the pseudocode's own variables: the
last ready observation (R150) and the bytes id[] or b[] read so far (R170, R173). -/
structure Seq where
  pc : Pc
  resume : Option RetryPt
  cur : Cur
  wcnt : BitVec 17
  sr : Byte
  tmrCnt : BitVec 32
  tmrThr : BitVec 32
  obs : Bool
  tmp : List Byte
deriving DecidableEq, Repr

/-- The pins the controller drives (R47), true for level 1; `ioOut` is the last value driven on IO
(R114). WP# is WPCTL[0] and is not stored twice. -/
structure Pins where
  dir : Dir
  cle : Bool
  ale : Bool
  weN : Bool
  reN : Bool
  ceN : Bool
  ioOut : Word
deriving DecidableEq, Repr

/-- One host access to the register window (R75): offset, width in bytes, and the value written. -/
inductive Access where
  | read (off : Byte) (bytes : Nat)
  | write (off : Byte) (bytes : Nat) (v : Reg)
deriving DecidableEq, Repr

/-- What the outside does next. -/
inductive Input where
  /-- a host access, made before the block's next micro-operation -/
  | access (a : Access)
  /-- the host leaves the block n micro-operations -/
  | pause (n : Nat)
  /-- `waitdone`: read STATUS until DONE = 1 (R132) -/
  | waitDone
  /-- `waitstream`: read BULK_INFO until STREAM_REQ = 1 (R132) -/
  | waitStream
  /-- RST is asserted (R340) -/
  | rst
deriving DecidableEq, Repr

/-- The environment and what is observed: `inputs` is what the outside does next, `answers` what the
device answers next (R8), `draws` how many answers were taken, `frees` how many other free values were
taken, `trace` the bus event trace (R140), `reads` the values returned to the host, oldest first. -/
structure Env where
  inputs : List Input
  answers : List Word
  draws : Nat
  frees : Nat
  trace : List Event
  reads : List Reg
deriving DecidableEq, Repr

/-- The whole state. `bufA` and `bufC` (R72, R73) list (word index, word) with indices strictly rising;
an unlisted word is one nothing has written since reset and reads as a free value (R52). -/
structure State where
  cfg : Config
  regs : HostRegs
  st : StatusReg
  ids : IdRegs
  bulk : Bulk
  seq : Seq
  pins : Pins
  bufA : List (Nat × Word)
  bufC : List (Nat × Word)
  env : Env
deriving DecidableEq, Repr

/-- The block has no trap mechanism (R311) and no behaviour the spec leaves without an effect: nothing
raises a fault, so there is none. -/
inductive Fault
deriving DecidableEq, Repr

/-- Why a step is refused. -/
inductive Refusal where
  /-- raised by exec for an operation with no meaning yet (none is left); safe -/
  | notModelled (mnemonic : String)
  /-- raised by step for a configuration outside R12 and R13: "a model refuses any other configuration"; safe -/
  | badConfig
  /-- raised by step for a host access that is not 32 bits wide at a multiple of 4: "it is not admitted,
  and the model takes no step for it" (R75); safe -/
  | badAccess
deriving DecidableEq, Repr

/-- The block right after reset in configuration c (R52). -/
def resetOf (c : Config) : State where
  cfg := c
  regs := { ctrlOp := 0, ctrlL := false, addr := 0, len := 0, faddr := 0, fdata := 0, bufPtr := 0,
            wpctl := false, bulkStart := 0, bulkCount := 0 }
  st := { busy := false, done := false, ovr := false, result := .success, lastSr := 0,
          session := .none, idcap := false }
  ids := { idLo := 0, idHi := 0, capLo := 0, capHi := 0 }
  bulk := { mode := .none, unit := 0, left := 0, count := 0, unitsDone := 0, fails := 0,
            phase := .capture, lastResult := .success, progress := 0, active := false,
            streamReq := false, streamDir := false, abortReq := false, aborted := false,
            badCount := 0, badLog := [], idRetries := 0 }
  seq := { pc := .idle, resume := none,
           cur := { op := 0, l := false, addr := 0, len := 0, faddr := 0, fdata := 0 },
           wcnt := 0, sr := 0, tmrCnt := 0, tmrThr := 0, obs := false, tmp := [] }
  pins := { dir := .inn, cle := false, ale := false, weN := true, reN := true, ceN := true, ioOut := 0 }
  bufA := []
  bufC := []
  env := { inputs := [], answers := [], draws := 0, frees := 0, trace := [], reads := [] }

/-- The machine right after reset. DESIGN CHOICE (log 2): the parameters are OPEN, so profile P0 stands
for them here; every statement quantifies over them. -/
def State.reset : State := resetOf Config.p0

end Sys2Proof.Machine
end

