-- ==== Sys2Proof/Machine/Operands.lean ====
section
/-! DEFINITION. Operand forms: device addresses, address groups, plane and unit addresses, packed bytes. -/

namespace Sys2Proof.Machine

/-- `col(a) = zext_16(a[ROW_SHIFT-1:0])` (R77). -/
def col (c : Config) (a : Reg) : BitVec 16 := BitVec.ofNat 16 (a.toNat % 2 ^ c.rowShift)

/-- `row(a) = zext_32(a[31:ROW_SHIFT])` (R77). -/
def row (c : Config) (a : Reg) : Reg := a >>> c.rowShift

/-- v[8k+7:8k]. -/
def byteOf (k : Nat) (v : Reg) : Byte := (v >>> (8 * k)).setWidth 8

/-- The column group (R116): low byte first. -/
def colGroup (c : Config) (a : Reg) : List Byte := [(col c a).setWidth 8, (col c a >>> 8).setWidth 8]

/-- The row group (R117): ROW_CYCLES bytes, low byte first. -/
def rowGroup (c : Config) (a : Reg) : List Byte :=
  [byteOf 0 (row c a), byteOf 1 (row c a)] ++ (if c.rowCycles = 3 then [byteOf 2 (row c a)] else [])

/-- The full address group (R118). -/
def fullGroup (c : Config) (a : Reg) : List Byte := colGroup c a ++ rowGroup c a

/-- PB (R120). -/
def planeBit (c : Config) : Nat :=
  match c.planeMode with
  | .onfi => c.planeBitOnfi
  | .traditional => c.planeBitTrad

/-- `prow(a, p) = (row(a) AND NOT (1 << PB)) OR (p << PB)` (R120). -/
def prow (c : Config) (a : Reg) (p : Bool) : Reg :=
  (row c a &&& ~~~(1#32 <<< planeBit c)) ||| ((if p then 1#32 else 0#32) <<< planeBit c)

/-- `paddr(a, p) = {prow(a, p)[31-ROW_SHIFT:0], col(a)[ROW_SHIFT-1:0]}` (R120). -/
def paddr (c : Config) (a : Reg) (p : Bool) : Reg :=
  (prow c a p <<< c.rowShift) ||| BitVec.ofNat 32 (a.toNat % 2 ^ c.rowShift)

/-- `pa(u) = (u << ROW_SHIFT) mod 2^32` (R265). -/
def pageUnitAddr (c : Config) (u : Reg) : Reg := u <<< c.rowShift

/-- `ba(b) = ((b × PAGES_PER_BLOCK) << ROW_SHIFT) mod 2^32` (R265). -/
def blockUnitAddr (c : Config) (b : Reg) : Reg := (b * BitVec.ofNat 32 c.pagesPerBlock) <<< c.rowShift

/-- Four bytes, the first in bits 7:0 (R26, R31). -/
def pack4 (b0 b1 b2 b3 : Byte) : Reg := b3 ++ b2 ++ b1 ++ b0

/-- `zext_32({b1, b0})` (R31). -/
def pack2 (b0 b1 : Byte) : Reg := (b1 ++ b0).setWidth 32

/-- Identity byte i of a register pair with R31's layout. -/
def idByteOf (lo hi : Reg) (i : Nat) : Byte := if i < 4 then byteOf i lo else byteOf (i - 4) hi

/-- id[i] as READ_ID stores it: the bytes read below ID_BYTES, 0 from there on (R31, R170). -/
def idByteRead (c : Config) (bytes : List Byte) (i : Nat) : Byte :=
  if i < c.idBytes then bytes.getD i 0 else 0

/-- Identity bytes 0 .. ID_BYTES-1 of a register pair equal f's (R262, R264). -/
def idMatches (c : Config) (lo hi : Reg) (f : Nat → Byte) : Bool :=
  (List.range c.idBytes).all fun i => decide (idByteOf lo hi i = f i)

/-- THR_FLASH from a microsecond value (R154): `ceil(T × TICKS_PER_US / POLL_INTERVAL)`. -/
def thrFlashOfUs (c : Config) (us : Nat) : Nat := (us * c.ticksPerUs + c.pollInterval - 1) / c.pollInterval

/-- The spec's default ROW_SHIFT (R78). -/
def rowShiftDefault (addrConvert : Bool) (busWidth : Nat) : Nat :=
  if busWidth = 16 then (if addrConvert then 12 else 11) else (if addrConvert then 13 else 12)

end Sys2Proof.Machine
end

