-- ==== Sys2Proof/Machine/Flags.lean ====
section
/-! DEFINITION. Status bits, result and session codes, and the checks before an operation's first bus cycle. -/

namespace Sys2Proof.Machine

/-- The 4-bit result code (R130). -/
def resultCode : Result → BitVec 4
  | .success => 0
  | .busy => 1
  | .operationTimeout => 2
  | .programFailed => 3
  | .eraseFailed => 4
  | .readIdFailed => 5
  | .invalidCommand => 6
  | .invalidData => 7
  | .invalidAddress => 8

/-- The 3-bit session code (R40). -/
def sessionCode : Session → BitVec 3
  | .none => 0
  | .rprog => 1
  | .cread => 2
  | .plane1Prog => 3
  | .plane1Erase => 4

/-- Bit READY_BIT of a status byte, 1 = ready (R50, R131). -/
def statusReady (c : Config) (b : Byte) : Bool := b.getLsbD c.readyBit

/-- Bit 0 of a status byte, 1 = failed (R50, R131, R216). -/
def statusFailed (b : Byte) : Bool := b.getLsbD 0

/-- OP is legal (R103): a value of R102's map, and 0x03 only when HAS_ENH_STATUS = 1. -/
def legalOp (c : Config) (op : Byte) : Bool :=
  ([0x01#8, 0x02#8, 0x04#8, 0x05#8, 0x10#8, 0x11#8, 0x12#8, 0x13#8, 0x20#8, 0x21#8, 0x22#8].contains op)
  || ([0x23#8, 0x24#8, 0x30#8, 0x40#8, 0x41#8, 0x42#8, 0x48#8, 0x49#8, 0x60#8, 0x61#8, 0x62#8].contains op)
  || (op == 0x03#8 && c.hasEnhStatus)

/-- The session admits OP (R305). -/
def sessionAdmits (x : Session) (op : Byte) : Bool :=
  match x with
  | .none => !([0x22#8, 0x23#8, 0x13#8, 0x41#8, 0x42#8, 0x49#8].contains op)
  | .rprog => [0x22#8, 0x23#8].contains op
  | .cread => [0x13#8].contains op
  | .plane1Prog => [0x41#8, 0x42#8].contains op
  | .plane1Erase => [0x49#8].contains op

/-- The LEN ops (R301). -/
def usesLen (op : Byte) : Bool :=
  [0x10#8, 0x11#8, 0x13#8, 0x20#8, 0x21#8, 0x22#8, 0x24#8, 0x40#8, 0x41#8, 0x42#8].contains op

/-- The checks of R310 in their order: the first that fails decides the result. -/
def checkRequest (c : Config) (x : Session) (cur : Cur) : Option Result :=
  if !legalOp c cur.op then some .invalidCommand
  else if !sessionAdmits x cur.op then some .invalidCommand
  else if usesLen cur.op && decide (c.bufWords < cur.len.toNat) then some .invalidData
  else if cur.op == 0x12#8 && col c cur.addr != 0#16 then some .invalidAddress
  else none

/-- A counter that saturates at 2^32 - 1 (R44, R45). -/
def satInc (v : Reg) : Reg := if v = BitVec.allOnes 32 then v else v + 1

/-- `floor(done × 100 / count)` (R276). -/
def progressOf (done count : Reg) : Byte := BitVec.ofNat 8 (done.toNat * 100 / count.toNat)

end Sys2Proof.Machine
end

