-- ==== Sys2Proof/Machine/Ops.lean ====
section
/-! DEFINITION. The named operations over buffers, draws, pins, the trace and the end of an operation. -/

namespace Sys2Proof.Machine

/-! ### Draws (R8) -/

/-- A value on IO[BUS_WIDTH-1:0] (R47, R72): the low BUS_WIDTH bits of w. -/
def busWord (c : Config) (w : Word) : Word := if c.busWidth = 16 then w else w &&& 0x00FF#16

/-- The device's n-th answer from now: the environment's, or a free value where its list has run out. -/
def answer (s : State) (n : Nat) : Word :=
  busWord s.cfg ((s.env.answers[n]?).getD (Config.freeAnswer (s.env.draws + n)))

/-- The level the R/B# pin shows if the n-th answer from now is a sample of it (R150). -/
def pinAnswer (s : State) (n : Nat) : Bool := (answer s n).getLsbD 0

/-- The next answer has been taken. -/
def takeAnswer (s : State) : State :=
  { s with env := { s.env with answers := s.env.answers.tail, draws := s.env.draws + 1 } }

/-- A free value other than a device answer has been taken. -/
def takeFree (s : State) : State := { s with env := { s.env with frees := s.env.frees + 1 } }

/-! ### The buffers (R72, R73) -/

/-- The word a buffer lists at index i. -/
def cellGet (i : Nat) : List (Nat × Word) → Option Word
  | [] => none
  | c :: rest => if c.1 = i then some c.2 else cellGet i rest

/-- The buffer with word i written. -/
def cellPut (i : Nat) (v : Word) : List (Nat × Word) → List (Nat × Word)
  | [] => [(i, v)]
  | c :: rest =>
    if i < c.1 then (i, v) :: c :: rest
    else if c.1 = i then (i, v) :: rest
    else c :: cellPut i v rest

/-- Indices strictly rising, all above lo. -/
def cellsAbove (lo : Nat) : List (Nat × Word) → Bool
  | [] => true
  | c :: rest => decide (lo ≤ c.1) && cellsAbove (c.1 + 1) rest

/-- The canonical form of a buffer: indices strictly rising and below BUF_WORDS, and no word wider than
the bus. No entry can equal what an unlisted index reads as, since that is no value of the list. -/
def Memory.wf (c : Config) (m : List (Nat × Word)) : Bool :=
  cellsAbove 0 m && m.all fun e => decide (e.1 < c.bufWords) && decide (busWord c e.2 = e.2)

/-- `MemRead(i, 1)` (R72). A word nothing has written reads as a draw (R52). -/
def memRead (s : State) (i : Nat) : Word :=
  (cellGet i s.bufA).getD (busWord s.cfg (Config.freeWordA s.env.frees i))

/-- `MemWrite(i, 1, v)` (R72): v[BUS_WIDTH-1:0] at word i of the BUF_WORDS words. -/
def memWrite (i : Nat) (v : Word) (s : State) : State :=
  { s with bufA := if i < s.cfg.bufWords then cellPut i (busWord s.cfg v) s.bufA else s.bufA }

/-- `CRead(i)` (R73). -/
def cRead (s : State) (i : Nat) : Word :=
  (cellGet i s.bufC).getD (busWord s.cfg (Config.freeWordC s.env.frees i))

/-- `CWrite(i, v)` (R73). -/
def cWrite (i : Nat) (v : Word) (s : State) : State :=
  { s with bufC := if i < s.cfg.bufWords then cellPut i (busWord s.cfg v) s.bufC else s.bufC }

/-- Some i < n has f i. -/
def anyBelow (f : Nat → Bool) : Nat → Bool
  | 0 => false
  | n + 1 => anyBelow f n || f n

/-- `exists i < n with MemRead(i, 1) != CRead(i)` (R268). -/
def buffersDiffer (s : State) (n : Nat) : Bool := anyBelow (fun i => decide (memRead s i ≠ cRead s i)) n

/-! ### Trace and pins (R111 to R114, R140 to R148) -/

/-- Append events to the trace, in order (R140). -/
def emitAll (es : List Event) (s : State) : State :=
  { s with env := { s.env with trace := s.env.trace ++ es } }

/-- Append one event to the trace (R140). -/
def emit (e : Event) (s : State) : State := emitAll [e] s

/-- CE# is 0 from the first micro-operation that touches the bus or the timer (R148). -/
def touch (s : State) : State := { s with pins := { s.pins with ceN := false } }

/-- Between cycles the bus rests at CLE = 0, ALE = 0, WE# = 1, RE# = 1 (R114). -/
def busRest (p : Pins) : Pins := { p with cle := false, ale := false, weN := true, reN := true }

/-- The pins while WE# is low in a command cycle (R111). -/
def cmdLow (c : Byte) (p : Pins) : Pins :=
  { p with cle := true, ale := false, weN := false, reN := true, ioOut := c.setWidth 16 }

/-- The pins while WE# is low in an address cycle (R112). -/
def addrLow (b : Byte) (p : Pins) : Pins :=
  { p with cle := false, ale := true, weN := false, reN := true, ioOut := b.setWidth 16 }

/-- The pins while WE# is low in a data write cycle (R113). -/
def writeLow (w : Word) (p : Pins) : Pins :=
  { p with cle := false, ale := false, weN := false, reN := true, ioOut := w }

/-- The pins while RE# is low in a data read cycle (R113). -/
def readLow (p : Pins) : Pins := { p with cle := false, ale := false, weN := true, reN := false }

/-- WP# is driven from WPCTL[0] (R32, R47). -/
def wpPin (s : State) : Bool := s.regs.wpctl

/-- What the controller drives on IO: nothing when dir = IN (R48, R114). -/
def ioDriven (s : State) : Option Word :=
  match s.pins.dir with
  | .out => some s.pins.ioOut
  | .inn => none

/-- `SetDir(d)` (R141): an event only when the direction changes. DEDUCED (log 21): one that changes nothing
also drives CE# to 0, since R114 has it 0 from the first micro-operation of an operation. -/
def setDir (d : Dir) (s : State) : State :=
  let s := touch s
  emitAll (if s.pins.dir = d then [] else [.dir d]) { s with pins := { s.pins with dir := d } }

/-- The command cycle of `Cmd(c)` (R111, R142). -/
def cmdCycle (c : Byte) (s : State) : State :=
  let s := touch s
  emit (.cmd c) { s with pins := busRest (cmdLow c s.pins) }

/-- The address cycle of `Addr(b)` (R112, R143). -/
def addrCycle (b : Byte) (s : State) : State :=
  let s := touch s
  emit (.addr b) { s with pins := busRest (addrLow b s.pins) }

/-- The data write cycle of `WrData(w)` (R113, R144). -/
def writeCycle (w : Word) (s : State) : State :=
  let s := touch s
  emit (.wr w) { s with pins := busRest (writeLow w s.pins) }

/-- The data read cycle of `RdData()` (R113, R145); the word read is `answer s 0`. -/
def readCycle (s : State) : State :=
  let w := answer s 0
  let s := touch (takeAnswer s)
  emit (.rd w) { s with pins := busRest (readLow s.pins) }

/-- The data write cycle of `WrData(MemRead(wcnt, 1))` (R149). -/
def writeBufCycle (s : State) : State :=
  let w := memRead s s.seq.wcnt.toNat
  let s := writeCycle w (takeFree s)
  { s with seq := { s.seq with wcnt := s.seq.wcnt + 1 } }

/-- The data read cycle of `MemWrite(wcnt, 1, RdData())` (R149). -/
def readBufACycle (s : State) : State :=
  let w := answer s 0
  let s := memWrite s.seq.wcnt.toNat w (readCycle s)
  { s with seq := { s.seq with wcnt := s.seq.wcnt + 1 } }

/-- The data read cycle of `CWrite(wcnt, RdData())` (R149). -/
def readBufCCycle (s : State) : State :=
  let w := answer s 0
  let s := cWrite s.seq.wcnt.toNat w (readCycle s)
  { s with seq := { s.seq with wcnt := s.seq.wcnt + 1 } }

/-- The data read cycle of the i-th identity or feature byte, IO[7:0] of the word (R115, R170, R173). -/
def readByteCycle (i : Nat) (s : State) : State :=
  let b : Byte := (answer s 0).setWidth 8
  let s := readCycle s
  { s with seq := { s.seq with tmp := s.seq.tmp.take i ++ [b] } }

/-- `Delay(t)` (R152): one event, the counter run up to the threshold. -/
def delayFor (t : BitVec 32) (s : State) : State :=
  let s := touch s
  emit (.delay t) { s with seq := { s.seq with tmrCnt := t, tmrThr := t } }

/-- `tmr.cnt <- 0; tmr.thr <- THR_FLASH` (R153). -/
def loadTimer (s : State) : State :=
  let s := touch s
  { s with seq := { s.seq with tmrCnt := 0, tmrThr := s.cfg.thrFlash } }

/-! ### Control and results (R36, R300) -/

/-- Move the sequencer (R36). -/
def setPc (p : Pc) (s : State) : State := { s with seq := { s.seq with pc := p } }

/-- session <- x (R40). -/
def setSession (x : Session) (s : State) : State := { s with st := { s.st with session := x } }

/-- `end with R` and `raise R` (R300, R146): the bus to rest, then the result to the host, or to the
retry controller if it issued the operation. The block has no other exception (R311). -/
def endOp (r : Result) (s : State) : State :=
  let s := { s with pins := { busRest s.pins with ceN := true } }
  match s.seq.resume with
  | none =>
    { s with st := { s.st with result := r, done := true, busy := false },
             seq := { s.seq with pc := .idle } }
  | some p =>
    { s with bulk := { s.bulk with lastResult := r },
             seq := { s.seq with pc := .bulk p, resume := none } }

/-- RST is asserted (R340): every piece of state takes its reset value, whatever the block is doing. What
the device will answer, what the outside does next and what was observed are not the block's state. -/
def assertReset (s : State) : State := { resetOf s.cfg with env := s.env }

end Sys2Proof.Machine
end

