-- ==== Sys2Proof/Machine/Sequences.lean ====
section
/-! DEFINITION. The command sequencer's fixed sequences: each operation's pseudocode, after the checks of
R310, as a list of micro-operations. -/

namespace Sys2Proof.Machine

/-- `Cmd(c)` (R142). -/
def seqCmd (c : Byte) : List Micro := [.act (.setDir .out), .act (.cmd c)]

/-- One `Addr(b)` (R143) for each byte of a group, never batched. -/
def seqAddrs : List Byte → List Micro
  | [] => []
  | b :: bs => .act (.setDir .out) :: .act (.addr b) :: seqAddrs bs

/-- One `WrData` (R144) for each byte, zero-extended (R115). -/
def seqWriteBytes : List Byte → List Micro
  | [] => []
  | b :: bs => .act (.setDir .out) :: .act (.wrByte b) :: seqWriteBytes bs

/-- n data cycles of one kind, each with its SetDir. -/
def seqRun (d : Dir) (a : Act) : Nat → List Micro
  | 0 => []
  | n + 1 => .act (.setDir d) :: .act a :: seqRun d a n

/-- `ReadWords(n)` (R149). -/
def seqReadWords (n : Nat) : List Micro := .act .clearWcnt :: seqRun .inn .rdBufA n

/-- `ReadWordsC(n)` (R149). -/
def seqReadWordsC (n : Nat) : List Micro := .act .clearWcnt :: seqRun .inn .rdBufC n

/-- `WriteWords(n)` (R149). -/
def seqWriteWords (n : Nat) : List Micro := .act .clearWcnt :: seqRun .out .wrBuf n

/-- `for i in lo .. lo+n-1: id[i] <- RdData()[7:0]` (R170, R173). -/
def seqReadBytes (lo : Nat) : Nat → List Micro
  | 0 => []
  | n + 1 => .act (.setDir .inn) :: .act (.rdByte lo) :: seqReadBytes (lo + 1) n

/-- `RdData()` of a status byte (R145). -/
def seqReadStatusByte : List Micro := [.act (.setDir .inn), .act .rdStatus]

/-- `ReadSR()` (R149). -/
def seqReadSR : List Micro := seqCmd 0x70 ++ seqReadStatusByte

/-- `SampleReady()` (R150). -/
def seqSampleReady (c : Config) : List Micro :=
  match c.rbSource with
  | .statusReg => seqReadSR
  | .rbPin => [.act .samplePin]

/-- `BusyCheck()` (R151). -/
def seqBusyCheck (c : Config) : List Micro := seqSampleReady c ++ [.raiseUnlessReady .busy]

/-- `WaitReady()` (R153): its outcome is the last observation. -/
def seqWaitReady (c : Config) : List Micro := .act .loadTimer :: (seqSampleReady c ++ [.pollAgain])

/-- `s <- ReadSR(); if s[0] = 1: raise r` (R216). -/
def seqStatusCheck (r : Result) : List Micro := seqReadSR ++ [.raiseIfFailed r]

/-! ### Identity, status and features (41) -/

/-- READ_ID (R170). -/
def seqReadId (c : Config) (_ : Cur) : List Micro :=
  seqBusyCheck c ++ seqCmd 0x90 ++ seqAddrs [0x00] ++ seqReadBytes 0 c.idBytes ++ [.act .storeId]

/-- READ_STATUS (R171). -/
def seqReadStatus (_ : Config) (_ : Cur) : List Micro := seqReadSR

/-- READ_STATUS_ENH (R172). -/
def seqReadStatusEnh (c : Config) (cur : Cur) : List Micro :=
  seqCmd c.enhStatusCmd ++ seqAddrs (rowGroup c cur.addr) ++ seqReadStatusByte

/-- GET_FEATURE (R173). -/
def seqGetFeature (c : Config) (cur : Cur) : List Micro :=
  seqBusyCheck c ++ seqCmd 0xEE ++ seqAddrs [cur.faddr] ++ [.act (.delay c.tFeatGet)]
  ++ seqReadBytes 0 4 ++ [.act .storeFeature]

/-- SET_FEATURE (R174). -/
def seqSetFeature (c : Config) (cur : Cur) : List Micro :=
  seqBusyCheck c ++ seqCmd 0xEF ++ seqAddrs [cur.faddr]
  ++ seqWriteBytes [byteOf 0 cur.fdata, byteOf 1 cur.fdata, byteOf 2 cur.fdata, byteOf 3 cur.fdata]
  ++ seqWaitReady c ++ [.raiseUnlessReady .operationTimeout]

/-! ### Reads (42) -/

/-- The page read setup shared by R190 and R192: 0x00, full address, 0x30, T_R. -/
def seqPageSetup (c : Config) (cur : Cur) : List Micro :=
  seqCmd 0x00 ++ seqAddrs (fullGroup c cur.addr) ++ seqCmd 0x30 ++ [.act (.delay c.tR)]

/-- PAGE_READ (R190). -/
def seqPageRead (c : Config) (cur : Cur) : List Micro :=
  seqBusyCheck c ++ seqPageSetup c cur ++ seqReadWords cur.len.toNat

/-- PAGE_READ with ReadWords replaced by ReadWordsC (R266). -/
def seqPageReadC (c : Config) (cur : Cur) : List Micro :=
  seqBusyCheck c ++ seqPageSetup c cur ++ seqReadWordsC cur.len.toNat

/-- RANDOM_READ (R191). -/
def seqRandomRead (c : Config) (cur : Cur) : List Micro :=
  seqCmd 0x05 ++ seqAddrs (colGroup c cur.addr) ++ seqCmd 0xE0 ++ seqReadWords cur.len.toNat

/-- CACHE_READ_BEGIN (R192). -/
def seqCacheReadBegin (c : Config) (cur : Cur) : List Micro :=
  seqBusyCheck c ++ seqPageSetup c cur ++ [.act (.setSession .cread)]

/-- CACHE_READ_CONT (R193). -/
def seqCacheReadCont (c : Config) (cur : Cur) : List Micro :=
  seqCmd (if cur.l then 0x3F else 0x31) ++ [.act (.delay c.tRcbsy)] ++ seqReadWords cur.len.toNat
  ++ (if cur.l then [.act (.setSession .none)] else [])

/-! ### Program and erase (43) -/

/-- `Cmd(0x80); SendFull(a); WriteWords(cur.len)`, the data load of every program. -/
def seqProgramLoad (c : Config) (cur : Cur) (a : Reg) : List Micro :=
  seqCmd 0x80 ++ seqAddrs (fullGroup c a) ++ seqWriteWords cur.len.toNat

/-- PAGE_PROGRAM (R210). -/
def seqPageProgram (c : Config) (cur : Cur) : List Micro :=
  seqBusyCheck c ++ seqProgramLoad c cur cur.addr ++ seqCmd 0x10 ++ seqWaitReady c
  ++ [.raiseUnlessReady .operationTimeout] ++ seqStatusCheck .programFailed

/-- RPROG_BEGIN (R211). -/
def seqRprogBegin (c : Config) (cur : Cur) : List Micro :=
  seqBusyCheck c ++ seqProgramLoad c cur cur.addr ++ [.act (.setSession .rprog)]

/-- RPROG_INPUT (R212). -/
def seqRprogInput (c : Config) (cur : Cur) : List Micro :=
  seqCmd 0x85 ++ seqAddrs (colGroup c cur.addr) ++ seqWriteWords cur.len.toNat

/-- RPROG_END (R213): the session closes whatever the outcome, and a timeout gives ProgramFailed. -/
def seqRprogEnd (c : Config) (_ : Cur) : List Micro :=
  seqCmd 0x10 ++ seqWaitReady c ++ [.act (.setSession .none), .raiseUnlessReady .programFailed]

/-- CACHE_PROGRAM (R214). -/
def seqCacheProgram (c : Config) (cur : Cur) : List Micro :=
  seqBusyCheck c ++ seqProgramLoad c cur cur.addr ++ seqCmd (if cur.l then 0x10 else 0x15)
  ++ seqWaitReady c ++ [.raiseUnlessReady .programFailed]

/-- BLOCK_ERASE (R215). -/
def seqBlockErase (c : Config) (cur : Cur) : List Micro :=
  seqBusyCheck c ++ seqCmd 0x60 ++ seqAddrs (rowGroup c cur.addr) ++ seqCmd 0xD0 ++ seqWaitReady c
  ++ [.raiseUnlessReady .operationTimeout] ++ seqStatusCheck .eraseFailed

/-! ### Two-plane operations (44) -/

/-- TP_PROG_P1 (R241). -/
def seqTpProgP1 (c : Config) (cur : Cur) : List Micro :=
  seqBusyCheck c ++ seqProgramLoad c cur (paddr c cur.addr false) ++ seqCmd 0x11
  ++ [.act (.delay c.tDbsy), .act (.setSession .plane1Prog)]

/-- TP_PROG_P2 (R242). -/
def seqTpProgP2 (c : Config) (cur : Cur) : List Micro :=
  seqProgramLoad c cur (paddr c cur.addr true) ++ seqCmd 0x10 ++ seqWaitReady c
  ++ [.act (.setSession .none), .raiseUnlessReady .operationTimeout] ++ seqStatusCheck .programFailed

/-- TP_CACHE_P2 (R243). -/
def seqTpCacheP2 (c : Config) (cur : Cur) : List Micro :=
  seqProgramLoad c cur (paddr c cur.addr true) ++ [.act (.setSession .none)]
  ++ (if cur.l then
        seqCmd 0x10 ++ seqWaitReady c ++ [.raiseUnlessReady .programFailed] ++ seqStatusCheck .programFailed
      else seqCmd 0x15 ++ [.act (.delay c.tCbsy)])

/-- TP_ERASE_P1 (R244). -/
def seqTpEraseP1 (c : Config) (cur : Cur) : List Micro :=
  seqBusyCheck c ++ seqCmd 0x60 ++ seqAddrs (rowGroup c (paddr c cur.addr false)) ++ seqCmd 0xD1
  ++ [.act (.delay c.tDbsy), .act (.setSession .plane1Erase)]

/-- TP_ERASE_P2 (R245). -/
def seqTpEraseP2 (c : Config) (cur : Cur) : List Micro :=
  seqCmd 0x60 ++ seqAddrs (rowGroup c (paddr c cur.addr true)) ++ seqCmd 0xD0 ++ seqWaitReady c
  ++ [.act (.setSession .none), .raiseUnlessReady .operationTimeout] ++ seqStatusCheck .eraseFailed

/-! ### Bulk operations (45) -/

/-- BULK_READ: the start of a run with bulk.mode = READ (R261, R277). -/
def seqBulkRead (_ : Config) (_ : Cur) : List Micro := [.startBulk .read]

/-- BULK_WRITE: the start of a run with bulk.mode = WRITE (R261, R278). -/
def seqBulkWrite (_ : Config) (_ : Cur) : List Micro := [.startBulk .write]

/-- BULK_ERASE: the start of a run with bulk.mode = ERASE (R261, R279). -/
def seqBulkErase (_ : Config) (_ : Cur) : List Micro := [.startBulk .erase]

end Sys2Proof.Machine
end

