-- ==== Sys2Proof/Machine/Sequencer.lean ====
section
/-! DEFINITION. The command sequencer: one micro-operation (R9, R36). -/

namespace Sys2Proof.Machine

/-- A status byte has been read (R39, R50, R149): sr, LAST_SR, and the ready bit observed (R150). -/
def readStatusCycle (s : State) : State :=
  let b : Byte := (answer s 0).setWidth 8
  let s := readCycle s
  { s with st := { s.st with lastSr := b },
           seq := { s.seq with sr := b, obs := statusReady s.cfg b } }

/-- One sample of R/B# (R150): no bus cycle, no direction event. -/
def samplePin (s : State) : State :=
  let rb := pinAnswer s 0
  let s := emit (.pin rb) (touch (takeAnswer s))
  { s with seq := { s.seq with obs := rb } }

/-- `x[ID_LO] <- {id[3], id[2], id[1], id[0]}; x[ID_HI] <- zext_32({id[5], id[4]})` (R170). -/
def storeId (s : State) : State :=
  let id := idByteRead s.cfg s.seq.tmp
  { s with ids := { s.ids with idLo := pack4 (id 0) (id 1) (id 2) (id 3), idHi := pack2 (id 4) (id 5) } }

/-- `x[FDATA] <- {b[3], b[2], b[1], b[0]}` (R173). -/
def storeFeature (s : State) : State :=
  let b := fun i => s.seq.tmp.getD i 0
  { s with regs := { s.regs with fdata := pack4 (b 0) (b 1) (b 2) (b 3) } }

/-- What a plain micro-operation does. -/
def applyAct : Act → State → State
  | .setDir d, s => setDir d s
  | .cmd c, s => cmdCycle c s
  | .addr b, s => addrCycle b s
  | .wrByte b, s => writeCycle (b.setWidth 16) s
  | .wrBuf, s => writeBufCycle s
  | .rdBufA, s => readBufACycle s
  | .rdBufC, s => readBufCCycle s
  | .rdByte i, s => readByteCycle i s
  | .rdStatus, s => readStatusCycle s
  | .samplePin, s => samplePin s
  | .clearWcnt, s => { s with seq := { s.seq with wcnt := 0 } }
  | .loadTimer, s => loadTimer s
  | .delay t, s => delayFor t s
  | .setSession x, s => setSession x s
  | .storeId, s => storeId s
  | .storeFeature, s => storeFeature s

/-- The start of a bulk run (R261), which also resets stream_dir (R42). BUSY stays 1; the retry controller
moves next, with no operation of its own open yet. DEDUCED (log 11): CE# is 1 there (R148). -/
def startBulk (m : BulkMode) (s : State) : State :=
  { s with
    bulk := { mode := m, unit := s.regs.bulkStart, left := s.regs.bulkCount, count := s.regs.bulkCount,
              unitsDone := 0, fails := 0, phase := .capture, lastResult := .success, progress := 0,
              active := true, streamReq := false, streamDir := false, abortReq := false,
              aborted := false, badCount := 0, badLog := [], idRetries := 0 }
    st := { s.st with idcap := false }
    seq := { s.seq with pc := .bulk .capture, resume := none }
    pins := { s.pins with ceN := true } }

/-- One micro-operation of operation op, k being the ones after it (R36). -/
def runMicro (op : Byte) (m : Micro) (k : List Micro) (s : State) : State :=
  match m with
  | .act a => setPc (.exec op k) (applyAct a s)
  | .check =>
    match checkRequest s.cfg s.st.session s.seq.cur with
    | some r => endOp r s
    | none => setPc (.exec op k) s
  | .raiseUnlessReady r => if s.seq.obs then setPc (.exec op k) s else endOp r s
  | .raiseIfFailed r => if statusFailed s.seq.sr then endOp r s else setPc (.exec op k) s
  | .pollAgain =>
    if s.seq.obs || decide (s.seq.tmrCnt = s.seq.tmrThr) then setPc (.exec op k) s
    else setPc (.exec op (seqSampleReady s.cfg ++ .pollAgain :: k))
           { s with seq := { s.seq with tmrCnt := s.seq.tmrCnt + 1 } }
  | .startBulk md => startBulk md s

/-- One sequencer step in EXEC(op, k) (R36): the micro-operation at k, or, after the last, `end with
Success`. -/
def sequencerStep (op : Byte) (k : List Micro) (s : State) : State :=
  match k with
  | [] => endOp .success s
  | m :: rest => runMicro op m rest s

/-- The request is latched (R37) and the operation's first step is next: the checks of R310. -/
def latchRequest (op : Byte) (l : Bool) (s : State) : Cur :=
  { op := op, l := l, addr := s.regs.addr, len := s.regs.len.setWidth 17, faddr := s.regs.faddr,
    fdata := s.regs.fdata }

/-- An accepted CTRL write with START = 1 (R23, R37), `body` being the operation's sequence. -/
def startOp (op : Byte) (l : Bool) (body : Config → Cur → List Micro) (s : State) : State :=
  let cur := latchRequest op l s
  { s with regs := { s.regs with ctrlOp := op, ctrlL := l },
           st := { s.st with busy := true, done := false },
           seq := { s.seq with cur := cur, pc := .exec op (.check :: body s.cfg cur) } }

end Sys2Proof.Machine
end

