-- ==== Sys2Proof/Machine/Retry.lean ====
section
/-! DEFINITION. The retry/timeout controller (45_retry_controller.md): the unit loop of R262 to R276. -/

namespace Sys2Proof.Machine

/-- The retry controller stands at p next. -/
def goTo (p : RetryPt) (s : State) : State := setPc (.bulk p) s

/-- bulk.phase <- x (R42). -/
def setPhase (x : Phase) (s : State) : State := { s with bulk := { s.bulk with phase := x } }

/-- `Issue` (R266): the sequencer runs the operation in cur, checks first, and control returns to p. -/
def issue (cur : Cur) (body : Config → Cur → List Micro) (p : RetryPt) (s : State) : State :=
  { s with seq := { s.seq with cur := cur, resume := some p,
                               pc := .exec cur.op (.check :: body s.cfg cur) } }

/-- `Issue(READ_ID)`: "takes no address or length" (R266). -/
def issueReadId (p : RetryPt) (s : State) : State :=
  issue { s.seq.cur with op := 0x01, l := false } seqReadId p s

/-- `Issue(op, a, n)` (R266). -/
def issueAt (op : Byte) (a : Reg) (n : Nat) (body : Config → Cur → List Micro) (p : RetryPt)
    (s : State) : State :=
  issue { s.seq.cur with op := op, l := false, addr := a, len := BitVec.ofNat 17 n } body p s

/-- `IssueC(PAGE_READ, pa(u), REC_WORDS)` of VerifyAgainstA (R268). -/
def issueVerify (s : State) : State :=
  issueAt 0x10 (pageUnitAddr s.cfg s.bulk.unit) s.cfg.recWords seqPageReadC .verified s

/-- `aborted <- 1; goto finish` (R274). -/
def abortRun (s : State) : State := goTo .finish { s with bulk := { s.bulk with aborted := true } }

/-- The identity captured by the run equals what READ_ID stored (R264). -/
def idIsCaptured (s : State) : Bool :=
  idMatches s.cfg s.ids.idLo s.ids.idHi (idByteOf s.ids.capLo s.ids.capHi)

/-- What READ_ID stored equals EXPECTED_ID (R262). -/
def idIsExpected (s : State) : Bool :=
  idMatches s.cfg s.ids.idLo s.ids.idHi fun i => s.cfg.expectedId.getD i 0

/-- After the capture's READ_ID (R262), and R263's first line. -/
def captureCheck (s : State) : State :=
  if s.bulk.lastResult = .success && idIsExpected s then
    goTo .loopHead
      { s with ids := { s.ids with capLo := s.ids.idLo, capHi := s.ids.idHi },
               st := { s.st with idcap := true },
               bulk := { s.bulk with
                 progress := if s.bulk.count = 0 then 100 else s.bulk.progress } }
  else endOp .readIdFailed { s with bulk := { s.bulk with active := false } }

/-- `bulk.fails <- 0`, then the first attempt on the unit (R263). -/
def beginAttempts (s : State) : State := goTo .validate { s with bulk := { s.bulk with fails := 0 } }

/-- The stream request of Fill and Drain (R272, R273). -/
def requestStream (dir : Bool) (x : Phase) (p : RetryPt) (s : State) : State :=
  goTo p { s with bulk := { s.bulk with phase := x, streamDir := dir, streamReq := true } }

/-- The head of the unit loop (R263). -/
def loopHead (s : State) : State :=
  if s.bulk.left = 0 then goTo .finish s
  else if s.bulk.abortReq then abortRun s
  else if s.bulk.mode = .write then requestStream true .fill .fillHold s
  else beginAttempts s

/-- The end of a hold of Fill or Drain (R272, R273): aborted if the request still stands, else `next`. -/
def holdEnd (next : State → State) (s : State) : State :=
  if s.bulk.streamReq then abortRun { s with bulk := { s.bulk with streamReq := false } } else next s

/-- After Validate's READ_ID (R264). -/
def validateCheck (s : State) : State :=
  if s.bulk.lastResult = .success && idIsCaptured s then goTo .execute s
  else
    let s := { s with bulk := { s.bulk with idRetries := satInc s.bulk.idRetries } }
    if s.bulk.abortReq then abortRun s else goTo .validate s

/-- `Execute`'s Issue (R267, R268). -/
def executeUnit (s : State) : State :=
  let s := setPhase .execute s
  match s.bulk.mode with
  | .read => issueAt 0x10 (pageUnitAddr s.cfg s.bulk.unit) s.cfg.recWords seqPageRead .executed s
  | .write => issueAt 0x20 (pageUnitAddr s.cfg s.bulk.unit) s.cfg.recWords seqPageProgram .executed s
  | .erase => issueAt 0x30 (blockUnitAddr s.cfg s.bulk.unit) 0 seqBlockErase .executed s
  | .none => goTo .finish s

/-- The unit is over: Drain for a read unit, then Advance (R263, R273). -/
def unitOver (s : State) : State :=
  if s.bulk.mode = .read then requestStream false .drain .drainHold s else goTo .advance s

/-- `LogBad(u)` (R270): a push onto a full FIFO is dropped (R44). -/
def logBad (s : State) : State :=
  { s with bulk := { s.bulk with
      badCount := satInc s.bulk.badCount
      badLog := if s.bulk.badLog.length < s.cfg.badLogDepth then s.bulk.badLog ++ [s.bulk.unit]
                else s.bulk.badLog } }

/-- A failed attempt (R263): another one, or the unit is logged bad past RETRY_MAX. -/
def attemptFailed (s : State) : State :=
  let s := { s with bulk := { s.bulk with fails := s.bulk.fails + 1 } }
  if s.cfg.retryMax < s.bulk.fails.toNat then unitOver (logBad s) else goTo .validate s

/-- CheckResult (R267): the verify that applies, success or a failed attempt. -/
def executedCheck (s : State) : State :=
  if s.bulk.lastResult = .success then
    match s.bulk.mode with
    | .read => if s.cfg.readVerify then issueVerify (setPhase .verify s) else unitOver s
    | .write => if s.cfg.writeVerify then issueVerify s else unitOver s
    | .erase => unitOver s
    | .none => goTo .finish s
  else attemptFailed s

/-- After the verify read (R268): a mismatch records InvalidData. -/
def verifiedCheck (s : State) : State :=
  if s.bulk.lastResult = .success then
    if buffersDiffer s s.cfg.recWords then
      attemptFailed (takeFree { s with bulk := { s.bulk with lastResult := .invalidData } })
    else unitOver (takeFree s)
  else attemptFailed s

/-- `Advance()` (R271). -/
def advanceUnit (s : State) : State :=
  goTo .loopHead
    { s with bulk := { s.bulk with
        phase := .advance
        unitsDone := s.bulk.unitsDone + 1
        left := s.bulk.left - 1
        unit := s.bulk.unit + 1
        progress := progressOf (s.bulk.unitsDone + 1) s.bulk.count } }

/-- One move of the retry controller, standing at p (R262, R263). -/
def retryStep (p : RetryPt) (s : State) : State :=
  match p with
  | .capture => issueReadId .captured s
  | .captured => captureCheck s
  | .loopHead => loopHead s
  | .fillHold => holdEnd beginAttempts s
  | .validate => issueReadId .validated (setPhase .validate s)
  | .validated => validateCheck s
  | .execute => executeUnit s
  | .executed => executedCheck s
  | .verified => verifiedCheck s
  | .drainHold => holdEnd (goTo .advance) s
  | .advance => advanceUnit s
  | .finish => endOp .success { s with bulk := { s.bulk with active := false } }

/-- A hold of Fill or Drain stands: "hold until stream_req = 0 or abort_req = 1" (R272, R273). -/
def holding (s : State) : Bool := s.bulk.streamReq && !s.bulk.abortReq

end Sys2Proof.Machine
end

