-- ==== Sys2Proof/Machine/Run.lean ====
section
/-! DEFINITION. Whose turn it is: the block's micro-operations, run until the next outside input is due. -/

namespace Sys2Proof.Machine

/-- The block can move: it is not IDLE and no stream hold stands (R36, R272, R273). -/
def moves (s : State) : Bool :=
  match s.seq.pc with
  | .idle => false
  | .exec _ _ => true
  | .bulk .fillHold => !holding s
  | .bulk .drainHold => !holding s
  | .bulk _ => true

/-- One micro-operation of the block (R9): the sequencer's, or, while it is suspended, the retry
controller's (R7). In IDLE the block performs none (R36). -/
def tick (s : State) : State :=
  match s.seq.pc with
  | .idle => s
  | .exec op k => sequencerStep op k s
  | .bulk p => retryStep p s

/-- At most n micro-operations, fewer if the block comes to IDLE or to a hold. -/
def drive : Nat → State → State
  | 0, s => s
  | n + 1, s => if moves s then drive n (tick s) else s

/-- More micro-operations than any one operation makes: two for each of at most 65536 words, and at most
six for each observation of a ready wait (R153, R359). -/
def opBudget (c : Config) : Nat := 131072 + 6 * c.thrFlash.toNat + 200

/-- How far one step lets the block run when no input is due: enough for an operation, and for a bulk run
in which every validation passes. A run that is not over by then goes on in the next step (log 1). -/
def budget (s : State) : Nat :=
  opBudget s.cfg * (4 * (s.regs.bulkCount.toNat + s.bulk.count.toNat + 1) * (s.cfg.retryMax + 1))

/-- The inputs still to come. -/
def setInputs (r : List Input) (s : State) : State := { s with env := { s.env with inputs := r } }

/-- The block's turn: it runs until the outside's next input is due (R7, R76, R86; log 1). -/
def advance (s : State) : State :=
  match s.env.inputs with
  | [] => drive (budget s) s
  | .waitDone :: _ => drive (budget s) s
  | .waitStream :: _ => drive (budget s) s
  | .pause n :: r => drive n (setInputs r s)
  | .access _ :: _ => s
  | .rst :: _ => s

/-- A CTRL write with START = 1 of operation op with sequence `body` (R23): refused while BUSY = 1 (R53),
else the operation starts and runs. -/
def request (op : Byte) (l : Bool) (body : Config → Cur → List Micro) (s : State) : State :=
  if s.st.busy then { s with st := { s.st with ovr := true } } else advance (startOp op l body s)

/-- A CTRL write with START = 1 whose OP is in no row of R102: it starts, and the checks of R310 end it
with InvalidCommand (R103, R308). -/
def requestIllegal (op : Byte) (l : Bool) (s : State) : State := request op l (fun _ _ => []) s

end Sys2Proof.Machine
end

