-- ==== Sys2Proof/Machine/BulkOps.lean ====
section
/-! DEFINITION. The meanings of the bulk operations (45_retry_controller.md): each starts its sequence and runs it. -/

namespace Sys2Proof.Machine

/-- BULK_READ (R277): identity capture, then per unit validation, page read, verify and drain. -/
def execBulkRead (l : Bool) (s : State) : Host.Outcome State Fault Refusal :=
  .next (request 0x60 l seqBulkRead s)

/-- BULK_WRITE (R278): identity capture, then per unit fill, validation, page program and verify. -/
def execBulkWrite (l : Bool) (s : State) : Host.Outcome State Fault Refusal :=
  .next (request 0x61 l seqBulkWrite s)

/-- BULK_ERASE (R279): identity capture, then per unit validation and block erase. -/
def execBulkErase (l : Bool) (s : State) : Host.Outcome State Fault Refusal :=
  .next (request 0x62 l seqBulkErase s)

end Sys2Proof.Machine
end

