-- ==== Sys2Proof/Machine/Identity.lean ====
section
/-! DEFINITION. The meanings of the identity, status and feature operations (41_identity_status.md): each starts its sequence and runs it. -/

namespace Sys2Proof.Machine

/-- READ_ID (R170): busy check, 0x90, address 0x00, ID_BYTES reads into ID_LO and ID_HI. -/
def execReadId (l : Bool) (s : State) : Host.Outcome State Fault Refusal :=
  .next (request 0x01 l seqReadId s)

/-- READ_STATUS (R171): one status read into LAST_SR, no busy check. -/
def execReadStatus (l : Bool) (s : State) : Host.Outcome State Fault Refusal :=
  .next (request 0x02 l seqReadStatus s)

/-- READ_STATUS_ENH (R172): ENH_STATUS_CMD, the row, one status read; InvalidCommand when HAS_ENH_STATUS = 0. -/
def execReadStatusEnh (l : Bool) (s : State) : Host.Outcome State Fault Refusal :=
  .next (request 0x03 l seqReadStatusEnh s)

/-- GET_FEATURE (R173): busy check, 0xEE, FADDR, T_FEAT_GET, four reads into FDATA. -/
def execGetFeature (l : Bool) (s : State) : Host.Outcome State Fault Refusal :=
  .next (request 0x04 l seqGetFeature s)

/-- SET_FEATURE (R174): busy check, 0xEF, FADDR, the four bytes of FDATA, ready wait. -/
def execSetFeature (l : Bool) (s : State) : Host.Outcome State Fault Refusal :=
  .next (request 0x05 l seqSetFeature s)

end Sys2Proof.Machine
end

