-- ==== Sys2Proof/Machine/Program.lean ====
section
/-! DEFINITION. The meanings of the program and erase operations (43_program_erase.md): each starts its sequence and runs it. -/

namespace Sys2Proof.Machine

/-- PAGE_PROGRAM (R210): busy check, 0x80, full address, LEN words of buffer A, 0x10, ready wait, status check. -/
def execPageProgram (l : Bool) (s : State) : Host.Outcome State Fault Refusal :=
  .next (request 0x20 l seqPageProgram s)

/-- RPROG_BEGIN (R211): busy check, 0x80, full address, LEN words; opens session RPROG. -/
def execRprogBegin (l : Bool) (s : State) : Host.Outcome State Fault Refusal :=
  .next (request 0x21 l seqRprogBegin s)

/-- RPROG_INPUT (R212): 0x85, column, LEN words. -/
def execRprogInput (l : Bool) (s : State) : Host.Outcome State Fault Refusal :=
  .next (request 0x22 l seqRprogInput s)

/-- RPROG_END (R213): 0x10, ready wait; closes the session. -/
def execRprogEnd (l : Bool) (s : State) : Host.Outcome State Fault Refusal :=
  .next (request 0x23 l seqRprogEnd s)

/-- CACHE_PROGRAM (R214): busy check, 0x80, full address, LEN words, 0x15 or, with L, 0x10, ready wait. -/
def execCacheProgram (l : Bool) (s : State) : Host.Outcome State Fault Refusal :=
  .next (request 0x24 l seqCacheProgram s)

/-- BLOCK_ERASE (R215): busy check, 0x60, row, 0xD0, ready wait, status check. -/
def execBlockErase (l : Bool) (s : State) : Host.Outcome State Fault Refusal :=
  .next (request 0x30 l seqBlockErase s)

end Sys2Proof.Machine
end

