-- ==== Sys2Proof/Machine/Read.lean ====
section
/-! DEFINITION. The meanings of the read operations (42_read.md): each starts its sequence and runs it. -/

namespace Sys2Proof.Machine

/-- PAGE_READ (R190): busy check, 0x00, full address, 0x30, T_R, LEN words into buffer A. -/
def execPageRead (l : Bool) (s : State) : Host.Outcome State Fault Refusal :=
  .next (request 0x10 l seqPageRead s)

/-- RANDOM_READ (R191): 0x05, column, 0xE0, LEN words into buffer A. -/
def execRandomRead (l : Bool) (s : State) : Host.Outcome State Fault Refusal :=
  .next (request 0x11 l seqRandomRead s)

/-- CACHE_READ_BEGIN (R192): page-aligned address, busy check, 0x00, full address, 0x30, T_R; opens session CREAD. -/
def execCacheReadBegin (l : Bool) (s : State) : Host.Outcome State Fault Refusal :=
  .next (request 0x12 l seqCacheReadBegin s)

/-- CACHE_READ_CONT (R193): 0x31 or, with L, 0x3F, T_RCBSY, LEN words into buffer A; L closes the session. -/
def execCacheReadCont (l : Bool) (s : State) : Host.Outcome State Fault Refusal :=
  .next (request 0x13 l seqCacheReadCont s)

end Sys2Proof.Machine
end

