-- ==== Sys2Proof/Machine/TwoPlane.lean ====
section
/-! DEFINITION. The meanings of the two-plane operations (44_two_plane.md): each starts its sequence and runs it. -/

namespace Sys2Proof.Machine

/-- TP_PROG_P1 (R241): busy check, 0x80, plane-0 address, LEN words, 0x11, T_DBSY; opens session PLANE1_PROG. -/
def execTpProgP1 (l : Bool) (s : State) : Host.Outcome State Fault Refusal :=
  .next (request 0x40 l seqTpProgP1 s)

/-- TP_PROG_P2 (R242): 0x80, plane-1 address, LEN words, 0x10, ready wait, status check; closes the session. -/
def execTpProgP2 (l : Bool) (s : State) : Host.Outcome State Fault Refusal :=
  .next (request 0x41 l seqTpProgP2 s)

/-- TP_CACHE_P2 (R243): 0x80, plane-1 address, LEN words, then 0x15 and T_CBSY or, with L, 0x10, ready wait and status check; closes the session. -/
def execTpCacheP2 (l : Bool) (s : State) : Host.Outcome State Fault Refusal :=
  .next (request 0x42 l seqTpCacheP2 s)

/-- TP_ERASE_P1 (R244): busy check, 0x60, plane-0 row, 0xD1, T_DBSY; opens session PLANE1_ERASE. -/
def execTpEraseP1 (l : Bool) (s : State) : Host.Outcome State Fault Refusal :=
  .next (request 0x48 l seqTpEraseP1 s)

/-- TP_ERASE_P2 (R245): 0x60, plane-1 row, 0xD0, ready wait, status check; closes the session. -/
def execTpEraseP2 (l : Bool) (s : State) : Host.Outcome State Fault Refusal :=
  .next (request 0x49 l seqTpEraseP2 s)

end Sys2Proof.Machine
end

