-- ==== Sys2Proof/Syntax.lean ====
section
/-! DEFINITION. The 23 operations of the block (R102), one constructor per row of the opcode table. -/

namespace Sys2Proof

/-- An operation request: the CTRL write that starts it (R101). `l` is CTRL[8]; every request carries it
and CTRL keeps it (R22, R23), but only CACHE_READ_CONT, CACHE_PROGRAM and TP_CACHE_P2 read it. The other
operands are host registers, latched at the start (R100, R37). -/
inductive Instr where
  /-- READ_ID (R170). -/
  | readId (l : Bool)
  /-- READ_STATUS (R171). -/
  | readStatus (l : Bool)
  /-- READ_STATUS_ENH (R172). -/
  | readStatusEnh (l : Bool)
  /-- GET_FEATURE (R173). -/
  | getFeature (l : Bool)
  /-- SET_FEATURE (R174). -/
  | setFeature (l : Bool)
  /-- PAGE_READ (R190). -/
  | pageRead (l : Bool)
  /-- RANDOM_READ (R191). -/
  | randomRead (l : Bool)
  /-- CACHE_READ_BEGIN (R192). -/
  | cacheReadBegin (l : Bool)
  /-- CACHE_READ_CONT (R193). -/
  | cacheReadCont (l : Bool)
  /-- PAGE_PROGRAM (R210). -/
  | pageProgram (l : Bool)
  /-- RPROG_BEGIN (R211). -/
  | rprogBegin (l : Bool)
  /-- RPROG_INPUT (R212). -/
  | rprogInput (l : Bool)
  /-- RPROG_END (R213). -/
  | rprogEnd (l : Bool)
  /-- CACHE_PROGRAM (R214). -/
  | cacheProgram (l : Bool)
  /-- BLOCK_ERASE (R215). -/
  | blockErase (l : Bool)
  /-- TP_PROG_P1 (R241). -/
  | tpProgP1 (l : Bool)
  /-- TP_PROG_P2 (R242). -/
  | tpProgP2 (l : Bool)
  /-- TP_CACHE_P2 (R243). -/
  | tpCacheP2 (l : Bool)
  /-- TP_ERASE_P1 (R244). -/
  | tpEraseP1 (l : Bool)
  /-- TP_ERASE_P2 (R245). -/
  | tpEraseP2 (l : Bool)
  /-- BULK_READ (R277). -/
  | bulkRead (l : Bool)
  /-- BULK_WRITE (R278). -/
  | bulkWrite (l : Bool)
  /-- BULK_ERASE (R279). -/
  | bulkErase (l : Bool)
deriving DecidableEq, Repr

end Sys2Proof
end

