-- ==== Sys2Proof/Machine/Dispatch.lean ====
section
/-! DEFINITION. Which meaning each operation has. -/

namespace Sys2Proof.Machine

def exec (i : Instr) (s : State) : Host.Outcome State Fault Refusal :=
  match i with
  | .readId l => Sys2Proof.Machine.execReadId l s
  | .readStatus l => Sys2Proof.Machine.execReadStatus l s
  | .readStatusEnh l => Sys2Proof.Machine.execReadStatusEnh l s
  | .getFeature l => Sys2Proof.Machine.execGetFeature l s
  | .setFeature l => Sys2Proof.Machine.execSetFeature l s
  | .pageRead l => Sys2Proof.Machine.execPageRead l s
  | .randomRead l => Sys2Proof.Machine.execRandomRead l s
  | .cacheReadBegin l => Sys2Proof.Machine.execCacheReadBegin l s
  | .cacheReadCont l => Sys2Proof.Machine.execCacheReadCont l s
  | .pageProgram l => Sys2Proof.Machine.execPageProgram l s
  | .rprogBegin l => Sys2Proof.Machine.execRprogBegin l s
  | .rprogInput l => Sys2Proof.Machine.execRprogInput l s
  | .rprogEnd l => Sys2Proof.Machine.execRprogEnd l s
  | .cacheProgram l => Sys2Proof.Machine.execCacheProgram l s
  | .blockErase l => Sys2Proof.Machine.execBlockErase l s
  | .tpProgP1 l => Sys2Proof.Machine.execTpProgP1 l s
  | .tpProgP2 l => Sys2Proof.Machine.execTpProgP2 l s
  | .tpCacheP2 l => Sys2Proof.Machine.execTpCacheP2 l s
  | .tpEraseP1 l => Sys2Proof.Machine.execTpEraseP1 l s
  | .tpEraseP2 l => Sys2Proof.Machine.execTpEraseP2 l s
  | .bulkRead l => Sys2Proof.Machine.execBulkRead l s
  | .bulkWrite l => Sys2Proof.Machine.execBulkWrite l s
  | .bulkErase l => Sys2Proof.Machine.execBulkErase l s

end Sys2Proof.Machine
end

