-- ==== Sys2Proof/Decode.lean ====
section
/-! DEFINITION. The request encoding (R100 to R103): the CTRL word, its decoder and its encoder. -/

namespace Sys2Proof

/-- CTRL[7:0], the operation code (R22, R101). -/
def ctrlWordOp (w : BitVec 32) : Byte := w.setWidth 8

/-- CTRL[8], the last flag (R22, R101). -/
def ctrlWordL (w : BitVec 32) : Bool := w.getLsbD 8

/-- CTRL[31], START (R22, R101). -/
def ctrlWordStart (w : BitVec 32) : Bool := w.getLsbD 31

/-- Why a CTRL word names no operation. -/
inductive DecodeReject where
  /-- START = 0: the write stores OP and L and starts nothing (R23). -/
  | noStart
  /-- OP is none of R102's values: the request ends with InvalidCommand (R103, R308). -/
  | illegalOp (op : Byte)
deriving DecidableEq, Repr

/-- The opcode map of R102, in the table's order. -/
def opcodeRows : List (Byte × (Bool → Instr)) :=
  [(0x01#8, .readId), (0x02#8, .readStatus), (0x03#8, .readStatusEnh), (0x04#8, .getFeature),
   (0x05#8, .setFeature), (0x10#8, .pageRead), (0x11#8, .randomRead), (0x12#8, .cacheReadBegin)]
  ++ [(0x13#8, .cacheReadCont), (0x20#8, .pageProgram), (0x21#8, .rprogBegin), (0x22#8, .rprogInput),
   (0x23#8, .rprogEnd), (0x24#8, .cacheProgram), (0x30#8, .blockErase), (0x40#8, .tpProgP1)]
  ++ [(0x41#8, .tpProgP2), (0x42#8, .tpCacheP2), (0x48#8, .tpEraseP1), (0x49#8, .tpEraseP2),
   (0x60#8, .bulkRead), (0x61#8, .bulkWrite), (0x62#8, .bulkErase)]

/-- "The decoder selects the operation by an exact match on OP" (R101): the row whose code is op. -/
def findOpcode (op : Byte) : List (Byte × (Bool → Instr)) → Option (Bool → Instr)
  | [] => none
  | row :: rest => if row.1 = op then some row.2 else findOpcode op rest

/-- The operation a CTRL word requests; reserved bits are ignored (R101). -/
def decode (w : BitVec 32) : Except DecodeReject Instr :=
  if ctrlWordStart w then
    match findOpcode (ctrlWordOp w) opcodeRows with
    | some mk => .ok (mk (ctrlWordL w))
    | none => .error (.illegalOp (ctrlWordOp w))
  else .error .noStart

/-- The operation code of an instruction (R102). -/
def Instr.opcode : Instr → Byte
  | .readId _ => 0x01
  | .readStatus _ => 0x02
  | .readStatusEnh _ => 0x03
  | .getFeature _ => 0x04
  | .setFeature _ => 0x05
  | .pageRead _ => 0x10
  | .randomRead _ => 0x11
  | .cacheReadBegin _ => 0x12
  | .cacheReadCont _ => 0x13
  | .pageProgram _ => 0x20
  | .rprogBegin _ => 0x21
  | .rprogInput _ => 0x22
  | .rprogEnd _ => 0x23
  | .cacheProgram _ => 0x24
  | .blockErase _ => 0x30
  | .tpProgP1 _ => 0x40
  | .tpProgP2 _ => 0x41
  | .tpCacheP2 _ => 0x42
  | .tpEraseP1 _ => 0x48
  | .tpEraseP2 _ => 0x49
  | .bulkRead _ => 0x60
  | .bulkWrite _ => 0x61
  | .bulkErase _ => 0x62

/-- The last flag of an instruction (R101). -/
def Instr.lastFlag : Instr → Bool
  | .readId l | .readStatus l | .readStatusEnh l | .getFeature l | .setFeature l => l
  | .pageRead l | .randomRead l | .cacheReadBegin l | .cacheReadCont l => l
  | .pageProgram l | .rprogBegin l | .rprogInput l | .rprogEnd l | .cacheProgram l | .blockErase l => l
  | .tpProgP1 l | .tpProgP2 l | .tpCacheP2 l | .tpEraseP1 l | .tpEraseP2 l => l
  | .bulkRead l | .bulkWrite l | .bulkErase l => l

/-- `0x80000000 | (L << 8) | OP` (R101). -/
def encodeWord (op : Byte) (l : Bool) : BitVec 32 :=
  0x80000000#32 ||| ((if l then 1#32 else 0#32) <<< 8) ||| op.setWidth 32

/-- The CTRL word that requests an instruction (R101). -/
def encode (i : Instr) : BitVec 32 := encodeWord i.opcode i.lastFlag

/-- The instruction the decoder reads from the low `nbits` bits of w, numbered as the opcode table
numbers them: the CTRL word is one 32-bit register written whole (R75, R100), so its bits are w's. -/
def decodeTableWord (nbits w : Nat) : Option Instr :=
  match decode (BitVec.ofNat 32 (w % 2 ^ nbits)) with
  | .ok i => some i
  | .error _ => none

end Sys2Proof
end

