-- ==== Sys2Proof/Machine/HostPort.lean ====
section
/-! DEFINITION. The host register window (10_state.md, 20_memory.md R74 to R76): host reads and writes. -/

namespace Sys2Proof.Machine

/-- Bit n of a register. -/
def bitAt (b : Bool) (n : Nat) : Reg := (if b then 1#32 else 0#32) <<< n

/-- STATUS (R27). -/
def statusWord (s : State) : Reg :=
  bitAt s.st.busy 0 ||| bitAt s.st.done 1 ||| bitAt s.st.ovr 2
  ||| ((resultCode s.st.result).setWidth 32 <<< 4) ||| (s.st.lastSr.setWidth 32 <<< 8)
  ||| ((sessionCode s.st.session).setWidth 32 <<< 16) ||| bitAt s.st.idcap 19

/-- BULK_INFO (R35). -/
def bulkInfoWord (s : State) : Reg :=
  s.bulk.fails.setWidth 32 ||| (s.bulk.progress.setWidth 32 <<< 8)
  ||| bitAt s.bulk.streamReq 16 ||| bitAt s.bulk.streamDir 17 ||| bitAt s.bulk.aborted 18
  ||| bitAt s.bulk.active 19 ||| ((resultCode s.bulk.lastResult).setWidth 32 <<< 20)

/-- CFG (R33). -/
def cfgWord (c : Config) : Reg :=
  bitAt (c.busWidth == 16) 0 ||| bitAt c.addrConvert 1 ||| bitAt (decide (c.planeMode = .onfi)) 2
  ||| bitAt (c.rowCycles == 3) 3 ||| ((BitVec.ofNat 3 c.idBytes).setWidth 32 <<< 4)
  ||| bitAt (decide (c.rbSource = .rbPin)) 7 ||| bitAt (c.readyBit == 7) 8 ||| bitAt c.readVerify 9
  ||| bitAt c.writeVerify 10 ||| bitAt c.includeSpare 11 ||| bitAt c.hasEnhStatus 12
  ||| ((BitVec.ofNat 5 c.rowShift).setWidth 32 <<< 16)

/-- CTRL as it reads (R22): START reads as 0, reserved bits 0. -/
def ctrlWord (s : State) : Reg := s.regs.ctrlOp.setWidth 32 ||| bitAt s.regs.ctrlL 8

/-- The buffer port is open to the host (R53): idle, or at a stream request. -/
def bufferOpen (s : State) : Bool := !s.st.busy || s.bulk.streamReq

/-- A refused access (R53, R76): OVR <- 1. -/
def refuseAccess (s : State) : State := { s with st := { s.st with ovr := true } }

/-- BUF_PTR steps on modulo 2^16 (R29, R74). -/
def bumpPtr (s : State) : State := { s with regs := { s.regs with bufPtr := s.regs.bufPtr + 1 } }

/-- A host read of BUF_DATA (R74, R53). -/
def readBufData (s : State) : Reg × State :=
  if bufferOpen s then
    let p := s.regs.bufPtr.toNat
    if p < s.cfg.bufWords then ((memRead s p).setWidth 32, bumpPtr (takeFree s)) else (0, bumpPtr s)
  else (0, refuseAccess s)

/-- A host read of BUF_PTR (R29). DESIGN CHOICE (log 5): while the port is closed the access is refused
(R53), and the value it returns, which R53 does not state, is a free value. -/
def readBufPtr (s : State) : Reg × State :=
  if bufferOpen s then (s.regs.bufPtr.setWidth 32, s)
  else (Config.freeHostWord s.env.frees, refuseAccess (takeFree s))

/-- A host read of BAD_LOG (R44): pops the oldest entry, 0xFFFFFFFF if there is none. -/
def readBadLog (s : State) : Reg × State :=
  match s.bulk.badLog with
  | [] => (0xFFFFFFFF#32, s)
  | u :: rest => (u, { s with bulk := { s.bulk with badLog := rest } })

/-- The registers a read of which has no side effect (R21, R53); an unlisted offset reads 0 (R20), and so
does STREAM, which is write-only. -/
def plainRead (s : State) (off : Byte) : Reg :=
  if off = 0x00#8 then ctrlWord s
  else if off = 0x04#8 then s.regs.addr
  else if off = 0x08#8 then s.regs.len.setWidth 32
  else if off = 0x0C#8 then s.regs.faddr.setWidth 32
  else if off = 0x10#8 then s.regs.fdata
  else if off = 0x14#8 then statusWord s
  else if off = 0x20#8 then s.ids.idLo
  else if off = 0x24#8 then s.ids.idHi
  else if off = 0x28#8 then bitAt s.regs.wpctl 0
  else if off = 0x2C#8 then cfgWord s.cfg
  else if off = 0x30#8 then s.regs.bulkStart
  else if off = 0x34#8 then s.regs.bulkCount
  else if off = 0x38#8 then s.bulk.unit
  else if off = 0x3C#8 then bulkInfoWord s
  else if off = 0x44#8 then s.bulk.badCount
  else if off = 0x4C#8 then s.bulk.idRetries
  else if off = 0x50#8 then s.ids.capLo
  else if off = 0x54#8 then s.ids.capHi
  else 0

/-- A host read of the register at an offset: the value and the state after (R21, R53, R74, R44). -/
def hostRead (off : Byte) (s : State) : Reg × State :=
  if off = 0x18#8 then readBufPtr s
  else if off = 0x1C#8 then readBufData s
  else if off = 0x48#8 then readBadLog s
  else (plainRead s off, s)

/-- The value returned reaches the host (log 8). -/
def noteRead (r : Reg × State) : State :=
  { r.2 with env := { r.2.env with reads := r.2.env.reads ++ [r.1] } }

/-- A write of a request register: ignored with OVR while BUSY = 1 (R53). -/
def whenIdle (f : HostRegs → HostRegs) (s : State) : State :=
  if s.st.busy then refuseAccess s else { s with regs := f s.regs }

/-- A host write of BUF_PTR (R29, R53). -/
def writeBufPtr (v : Reg) (s : State) : State :=
  if bufferOpen s then { s with regs := { s.regs with bufPtr := v.setWidth 16 } } else refuseAccess s

/-- A host write of BUF_DATA (R74, R53). -/
def writeBufData (v : Reg) (s : State) : State :=
  if bufferOpen s then bumpPtr (memWrite s.regs.bufPtr.toNat (v.setWidth 16) s) else refuseAccess s

/-- A host write of STATUS (R28): clears OVR if v[2] = 1. -/
def writeStatus (v : Reg) (s : State) : State :=
  if v.getLsbD 2 then { s with st := { s.st with ovr := false } } else s

/-- A host write of STREAM (R46): bit 0 acknowledges a standing request, bit 1 asks to abort an active
run; both are taken against the state before the write. -/
def writeStream (v : Reg) (s : State) : State :=
  { s with bulk := { s.bulk with
      streamReq := s.bulk.streamReq && !v.getLsbD 0
      abortReq := s.bulk.abortReq || (v.getLsbD 1 && s.bulk.active) } }

/-- A host write of the register at an offset. Read-only registers and unlisted offsets ignore it (R20,
R21), while busy without OVR (DEDUCED, log 17). DESIGN CHOICE (log 20): so does BAD_LOG, of whose writes
the spec says nothing. A CTRL write here is one with START = 0, which stores OP and L (R23). -/
def hostWrite (off : Byte) (v : Reg) (s : State) : State :=
  if off = 0x00#8 then whenIdle (fun r => { r with ctrlOp := v.setWidth 8, ctrlL := v.getLsbD 8 }) s
  else if off = 0x04#8 then whenIdle (fun r => { r with addr := v }) s
  else if off = 0x08#8 then whenIdle (fun r => { r with len := v.setWidth 16 }) s
  else if off = 0x0C#8 then whenIdle (fun r => { r with faddr := v.setWidth 8 }) s
  else if off = 0x10#8 then whenIdle (fun r => { r with fdata := v }) s
  else if off = 0x14#8 then writeStatus v s
  else if off = 0x18#8 then writeBufPtr v s
  else if off = 0x1C#8 then writeBufData v s
  else if off = 0x28#8 then whenIdle (fun r => { r with wpctl := v.getLsbD 0 }) s
  else if off = 0x30#8 then whenIdle (fun r => { r with bulkStart := v }) s
  else if off = 0x34#8 then whenIdle (fun r => { r with bulkCount := v }) s
  else if off = 0x40#8 then writeStream v s
  else s

/-- A host access is a 32-bit access at a multiple of 4 (R75). -/
def accessAligned : Access → Bool
  | .read off bytes => bytes == 4 && off.toNat % 4 == 0
  | .write off bytes _ => bytes == 4 && off.toNat % 4 == 0

/-- An admitted host access other than a CTRL write with START = 1. -/
def hostAccess : Access → State → State
  | .read off _, s => noteRead (hostRead off s)
  | .write off _ v, s => hostWrite off v s

end Sys2Proof.Machine
end

