-- ==== Sys2Proof/Machine/Fetch.lean ====
section
/-! DEFINITION. What comes next: the outside's next input, or the block's own turn. -/

namespace Sys2Proof.Machine

/-- What a step does. -/
inductive Fetch where
  /-- the step is refused -/
  | stop (r : Refusal)
  /-- a host write of CTRL requests i, in the state without that input -/
  | run (i : Instr) (s : State)
  /-- anything else: the next state -/
  | go (s : State)
deriving DecidableEq, Repr

/-- The word an access writes to CTRL (R21). -/
def ctrlWritten : Access → Option Reg
  | .read _ _ => none
  | .write off _ v => if off = 0x00#8 then some v else none

/-- An admitted host access: a CTRL write that requests an operation runs it, one whose OP is illegal is
a request that fails (R103), every other access is HostPort's. -/
def fetchAccess (a : Access) (s : State) : Fetch :=
  match ctrlWritten a with
  | none => .go (hostAccess a s)
  | some w =>
    match decode w with
    | .ok i => .run i s
    | .error (.illegalOp op) => .go (requestIllegal op (ctrlWordL w) s)
    | .error .noStart => .go (hostAccess a s)

/-- `loop: rd NAME; if the bit is 0 goto loop` (R132): one read, then the loop is left or the block has
its turn; `s` still holds the pseudo-instruction, `rest` are the inputs after it. -/
def pollHost (off : Byte) (bit : Bool) (rest : List Input) (s : State) : State :=
  let s := noteRead (hostRead off s)
  if bit then setInputs rest s else advance s

/-- The next thing to happen. A configuration outside R12 and R13 is refused (R13), and so is a host
access that is not a 32-bit aligned one (R75). -/
def fetch (s : State) : Fetch :=
  if !s.cfg.wf then .stop .badConfig
  else
    match s.env.inputs with
    | [] => .go (advance s)
    | .pause _ :: _ => .go (advance s)
    | .waitDone :: r => .go (pollHost 0x14 s.st.done r s)
    | .waitStream :: r => .go (pollHost 0x3C s.bulk.streamReq r s)
    | .rst :: r => .go (assertReset (setInputs r s))
    | .access a :: r => if accessAligned a then fetchAccess a (setInputs r s) else .stop .badAccess

/-- s with the word w as the host's next write of CTRL (log 1). -/
def placeRequest (nbits w : Nat) (s : State) : State :=
  setInputs (.access (.write 0x00 4 (BitVec.ofNat 32 (w % 2 ^ nbits))) :: s.env.inputs) s

end Sys2Proof.Machine
end

