-- ==== Sys2Proof/Machine/Step.lean ====
section
/-! DEFINITION. One step of the machine. -/

namespace Sys2Proof.Machine

/-- One step: the outside's next input, or the block's turn. A host write of CTRL that requests an
operation (R23) is exec of it. -/
def step (s : State) : Host.Outcome State Fault Refusal :=
  match fetch s with
  | .stop r => .refused r
  | .run i s' => exec i s'
  | .go s' => .next s'

/-- s with the instruction w placed where step takes its next instruction: the host's next access is the
write of w to CTRL (R100). -/
def State.withFetchWord (s : State) (nbits w : Nat) : State := placeRequest nbits w s

end Sys2Proof.Machine
end

