-- ==== Sys2Proof/Safety.lean ====
section
/-! DEFINITION. The terms the claims use: expected traces, how an operation ends, and the invariant. -/

namespace Sys2Proof.Machine

/-! ### Expected traces -/

/-- The direction an event's cycle needs: OUT for command, address and data write cycles, IN for a data
read (R142 to R145); a delay and a pin sample need none. -/
def cycleDir : Event → Option Dir
  | .cmd _ => some .out
  | .addr _ => some .out
  | .wr _ => some .out
  | .rd _ => some .inn
  | .dir _ => none
  | .delay _ => none
  | .pin _ => none

/-- The direction after the cycles es, from direction d. -/
def dirAfter (d : Dir) : List Event → Dir
  | [] => d
  | e :: es => dirAfter ((cycleDir e).getD d) es

/-- The trace of the cycles es from direction d: a DIR event before a cycle exactly when the direction
changes (R141). -/
def busTrace (d : Dir) : List Event → List Event
  | [] => []
  | e :: es =>
    (if d = (cycleDir e).getD d then [] else [.dir ((cycleDir e).getD d)])
      ++ e :: busTrace ((cycleDir e).getD d) es

/-- The n-th answer's byte IO[7:0] (R115). -/
def answerByte (s : State) (n : Nat) : Byte := (answer s n).setWidth 8

/-- The n-th answer, taken as a ready observation (R150). -/
def readyAt (s : State) (n : Nat) : Bool :=
  match s.cfg.rbSource with
  | .statusReg => statusReady s.cfg (answerByte s n)
  | .rbPin => pinAnswer s n

/-- The cycles of a status read answered by answer n: `C:70 R:ss` (R149). -/
def statusEvents (s : State) (n : Nat) : List Event := [.cmd 0x70, .rd (answer s n)]

/-- The cycles of a ready observation answered by answer n (R150). -/
def sampleEvents (s : State) (n : Nat) : List Event :=
  match s.cfg.rbSource with
  | .statusReg => statusEvents s n
  | .rbPin => [.pin (pinAnswer s n)]

/-- k ready observations in a row, the first answered by answer b. -/
def pollEvents (s : State) (b k : Nat) : List Event :=
  (List.range k).flatMap fun i => sampleEvents s (b + i)

/-- The address cycles of a group (R116 to R119). -/
def addrEvents (bs : List Byte) : List Event := bs.map .addr

/-- n data reads, the first answered by answer b. -/
def readEvents (s : State) (b n : Nat) : List Event := (List.range n).map fun i => .rd (answer s (b + i))

/-- Word i of buffer A as a program started in s sends it (R72, R149): the word listed, or a free value
(R52). -/
def sentWord (s : State) (i : Nat) : Word :=
  (cellGet i s.bufA).getD (busWord s.cfg (Config.freeWordA (s.env.frees + i) i))

/-- n data writes, words 0 .. n-1 of buffer A (R72). -/
def sentEvents (s : State) (n : Nat) : List Event := (List.range n).map fun i => .wr (sentWord s i)

/-- The four data writes of SET_FEATURE, P1 first (R26, R174). -/
def featureEvents (v : Reg) : List Event := (List.range 4).map fun k => .wr ((byteOf k v).setWidth 16)

/-- The cycles of a READ_ID whose busy check is answered by answer b (R170). -/
def readIdEvents (s : State) (b : Nat) : List Event :=
  sampleEvents s b ++ [.cmd 0x90, .addr 0x00] ++ readEvents s (b + 1) s.cfg.idBytes

/-- The cycles of the page read setup for address a (R190, R192). -/
def pageSetupEvents (c : Config) (a : Reg) : List Event :=
  [.cmd 0x00] ++ addrEvents (fullGroup c a) ++ [.cmd 0x30, .delay c.tR]

/-- The cycles of a program's data load at address a (R210). -/
def programEvents (s : State) (a : Reg) (n : Nat) : List Event :=
  [.cmd 0x80] ++ addrEvents (fullGroup s.cfg a) ++ sentEvents s n

/-! ### Ready waits (R153) -/

/-- A ready wait whose first observation is answer b sees ready first at its observation b + j. -/
def ReadyAfter (s : State) (b j : Nat) : Prop :=
  j ≤ s.cfg.thrFlash.toNat ∧ (∀ i < j, readyAt s (b + i) = false) ∧ readyAt s (b + j) = true

/-- All THR_FLASH + 1 observations of a ready wait, the first being answer b, see busy. -/
def NeverReady (s : State) (b : Nat) : Prop := ∀ i ≤ s.cfg.thrFlash.toNat, readyAt s (b + i) = false

/-- LAST_SR after a ready observation answered by answer n: the byte read, or, in RB_PIN mode, what it
was (R50). -/
def lastSrAt (s : State) (n : Nat) : Byte :=
  match s.cfg.rbSource with
  | .statusReg => answerByte s n
  | .rbPin => s.st.lastSr

/-! ### How an operation starts and ends -/

/-- No input is due before the block has come to rest: the list of inputs is empty or the host polls. -/
def undisturbed (s : State) : Bool :=
  match s.env.inputs with
  | [] => true
  | .waitDone :: _ => true
  | .waitStream :: _ => true
  | .pause _ :: _ => false
  | .access _ :: _ => false
  | .rst :: _ => false

/-- The block is idle with session x and runs undisturbed. (`Inv` says that an idle block has no
internal operation open.) -/
def Startable (s : State) (x : Session) : Prop :=
  s.st.busy = false ∧ s.seq.resume = none ∧ s.st.session = x ∧ undisturbed s = true

/-- The operation op, requested by the host in s with last flag l, has ended in t with result r and
session x (R300, R146): STATUS but LAST_SR as stated, the bus at rest, and every register the operation
does not name as it was. FDATA, the identity registers, buffer A and the sequencer's timer, wcnt and sr
(`SeqFrame`) are spoken of beside this, the model's own variables (log 4, log 6) and the value IO last
drove are not. -/
def Ended (s t : State) (op : Byte) (l : Bool) (r : Result) (x : Session) : Prop :=
  t.cfg = s.cfg
  ∧ t.regs = { s.regs with ctrlOp := op, ctrlL := l, fdata := t.regs.fdata }
  ∧ t.st = { s.st with busy := false, done := true, result := r, session := x, lastSr := t.st.lastSr }
  ∧ t.ids = { s.ids with idLo := t.ids.idLo, idHi := t.ids.idHi }
  ∧ t.bulk = s.bulk
  ∧ t.bufC = s.bufC
  ∧ t.seq.pc = .idle ∧ t.seq.resume = none ∧ t.seq.cur = latchRequest op l s
  ∧ t.pins.cle = false ∧ t.pins.ale = false ∧ t.pins.weN = true ∧ t.pins.reN = true ∧ t.pins.ceN = true
  ∧ t.env.inputs = s.env.inputs ∧ t.env.reads = s.env.reads

/-- The operations with a fixed delay or a ready wait (R152, R153): the others leave the timer alone. -/
def usesTimer (op : Byte) : Bool :=
  [0x04#8, 0x05#8, 0x10#8, 0x12#8, 0x13#8, 0x20#8, 0x23#8, 0x24#8, 0x30#8, 0x40#8, 0x41#8, 0x42#8, 0x48#8,
    0x49#8].contains op

/-- The timer is as it was (R41). -/
def TimerKept (s t : State) : Prop := t.seq.tmrCnt = s.seq.tmrCnt ∧ t.seq.tmrThr = s.seq.tmrThr

/-- Of the sequencer's own registers, operation op leaves alone the timer if it has no delay and no wait
(R41), and wcnt if it transfers no words (R38); sr is written together with LAST_SR or not at all (R39,
R50). -/
def SeqFrame (s t : State) (op : Byte) : Prop :=
  (usesTimer op = false → TimerKept s t) ∧ (usesLen op = false → t.seq.wcnt = s.seq.wcnt)
  ∧ (t.seq.sr = t.st.lastSr ∨ t.seq.sr = s.seq.sr ∧ t.st.lastSr = s.st.lastSr)

/-- FDATA, ID_LO, ID_HI and every word of buffer A are as they were. -/
def DataKept (s t : State) : Prop :=
  t.regs.fdata = s.regs.fdata ∧ t.ids.idLo = s.ids.idLo ∧ t.ids.idHi = s.ids.idHi ∧ t.bufA = s.bufA

/-- Between s and t the cycles es were made, answered by the next `used` answers. -/
def Observed (s t : State) (es : List Event) (used : Nat) : Prop :=
  t.env.trace = s.env.trace ++ busTrace s.pins.dir es
  ∧ t.pins.dir = dirAfter s.pins.dir es
  ∧ t.env.answers = s.env.answers.drop used
  ∧ t.env.draws = s.env.draws + used

/-- Buffer A of t holds n words read from answer b on in words 0 .. n-1, and every other word as in s
(R72, R149). -/
def ReadIntoA (s t : State) (b n : Nat) : Prop :=
  (∀ i < n, cellGet i t.bufA = some (answer s (b + i)))
  ∧ (∀ i, n ≤ i → cellGet i t.bufA = cellGet i s.bufA)
  ∧ t.regs.fdata = s.regs.fdata ∧ t.ids.idLo = s.ids.idLo ∧ t.ids.idHi = s.ids.idHi

/-- The operation op ended in t with result r and session x after the cycles es, answered by `used`
answers, with LAST_SR sr and no data written. -/
def EndedAs (s t : State) (op : Byte) (l : Bool) (r : Result) (x : Session) (es : List Event)
    (used : Nat) (sr : Byte) : Prop :=
  Ended s t op l r x ∧ Observed s t es used ∧ DataKept s t ∧ t.st.lastSr = sr

/-- The operation op found the device busy: one observation, no command byte of its own (R302), no delay
and no word transferred. -/
def EndedBusy (s t : State) (op : Byte) (l : Bool) : Prop :=
  EndedAs s t op l .busy s.st.session (sampleEvents s 0) 1 (lastSrAt s 0)
  ∧ TimerKept s t ∧ t.seq.wcnt = s.seq.wcnt

/-- One of the checks of R310 ended the operation op with result r in session x: no cycle, and of the
sequencer's registers only the latched request is written (R37; that it is, and CTRL, is log 12). -/
def Refused (s t : State) (op : Byte) (l : Bool) (r : Result) (x : Session) : Prop :=
  EndedAs s t op l r x [] 0 s.st.lastSr ∧ t.seq = { s.seq with pc := .idle, cur := latchRequest op l s }

/-- How an operation ends that makes the cycles es, answered by b answers, and then a ready wait: with
success at the first ready observation, with result `timeout` if there is none (R153). -/
def WaitEnds (s t : State) (op : Byte) (l : Bool) (timeout : Result) (x : Session) (es : List Event)
    (b : Nat) : Prop :=
  (∀ j, ReadyAfter s b j →
    EndedAs s t op l .success x (es ++ pollEvents s b (j + 1)) (b + j + 1) (lastSrAt s (b + j)))
  ∧ (NeverReady s b →
    EndedAs s t op l timeout x (es ++ pollEvents s b (s.cfg.thrFlash.toNat + 1))
      (b + s.cfg.thrFlash.toNat + 1) (lastSrAt s (b + s.cfg.thrFlash.toNat)))

/-- The same with a fresh status read after the wait: bit 0 set gives the result `failed` (R216), and no
status read follows a timeout (R303). -/
def WaitStatusEnds (s t : State) (op : Byte) (l : Bool) (timeout failed : Result) (x : Session)
    (es : List Event) (b : Nat) : Prop :=
  (∀ j, ReadyAfter s b j →
    EndedAs s t op l (if statusFailed (answerByte s (b + j + 1)) then failed else .success) x
      (es ++ pollEvents s b (j + 1) ++ statusEvents s (b + j + 1)) (b + j + 2)
      (answerByte s (b + j + 1)))
  ∧ (NeverReady s b →
    EndedAs s t op l timeout x (es ++ pollEvents s b (s.cfg.thrFlash.toNat + 1))
      (b + s.cfg.thrFlash.toNat + 1) (lastSrAt s (b + s.cfg.thrFlash.toNat)))

/-- The operations a session admits, as R305's table lists them. -/
def admittedIn : Session → Instr → Bool
  | .none, i =>
    match i with
    | .rprogInput _ | .rprogEnd _ | .cacheReadCont _ | .tpProgP2 _ | .tpCacheP2 _ | .tpEraseP2 _ => false
    | .readId _ | .readStatus _ | .readStatusEnh _ | .getFeature _ | .setFeature _ => true
    | .pageRead _ | .randomRead _ | .cacheReadBegin _ => true
    | .pageProgram _ | .rprogBegin _ | .cacheProgram _ | .blockErase _ => true
    | .tpProgP1 _ | .tpEraseP1 _ | .bulkRead _ | .bulkWrite _ | .bulkErase _ => true
  | .rprog, i => decide (i = .rprogInput i.lastFlag ∨ i = .rprogEnd i.lastFlag)
  | .cread, i => decide (i = .cacheReadCont i.lastFlag)
  | .plane1Prog, i => decide (i = .tpProgP2 i.lastFlag ∨ i = .tpCacheP2 i.lastFlag)
  | .plane1Erase, i => decide (i = .tpEraseP2 i.lastFlag)

/-- The operations that use LEN (R301). -/
def lenOperation : Instr → Bool
  | .pageRead _ | .randomRead _ | .cacheReadCont _ | .pageProgram _ | .rprogBegin _ | .rprogInput _ => true
  | .cacheProgram _ | .tpProgP1 _ | .tpProgP2 _ | .tpCacheP2 _ => true
  | .readId _ | .readStatus _ | .readStatusEnh _ | .getFeature _ | .setFeature _ => false
  | .cacheReadBegin _ | .rprogEnd _ | .blockErase _ | .tpEraseP1 _ | .tpEraseP2 _ => false
  | .bulkRead _ | .bulkWrite _ | .bulkErase _ => false

/-- The operations that end a session (R305). -/
def closesSession : Instr → Bool
  | .rprogEnd _ | .tpProgP2 _ | .tpCacheP2 _ | .tpEraseP2 _ => true
  | .cacheReadCont l => l
  | .readId _ | .readStatus _ | .readStatusEnh _ | .getFeature _ | .setFeature _ => false
  | .pageRead _ | .randomRead _ | .cacheReadBegin _ | .pageProgram _ | .rprogBegin _ => false
  | .rprogInput _ | .cacheProgram _ | .blockErase _ | .tpProgP1 _ | .tpEraseP1 _ => false
  | .bulkRead _ | .bulkWrite _ | .bulkErase _ => false

/-- The identity read, the first byte being answer b, is EXPECTED_ID (R262). -/
def IdentityOk (s : State) (b : Nat) : Prop :=
  ∀ i < s.cfg.idBytes, answerByte s (b + i) = s.cfg.expectedId.getD i 0

/-- ID_LO and ID_HI as a READ_ID stores them, the first byte being answer b (R31, R170). -/
def IdStored (s : State) (b : Nat) (lo hi : Reg) : Prop :=
  ∀ i < 8, idByteOf lo hi i = if i < s.cfg.idBytes then answerByte s (b + i) else 0

/-- The retry controller's registers as the start of a run sets them (R261, R42). -/
def runStarted (s : State) (m : BulkMode) : Bulk :=
  { mode := m, unit := s.regs.bulkStart, left := s.regs.bulkCount, count := s.regs.bulkCount,
    unitsDone := 0, fails := 0, phase := .capture, lastResult := .success, progress := 0, active := true,
    streamReq := false, streamDir := false, abortReq := false, aborted := false,
    badCount := 0, badLog := [], idRetries := 0 }

/-- The bulk operations (R102) and their modes (R277 to R279). -/
def bulkModeOf : Instr → Option BulkMode
  | .bulkRead _ => some .read
  | .bulkWrite _ => some .write
  | .bulkErase _ => some .erase
  | .readId _ | .readStatus _ | .readStatusEnh _ | .getFeature _ | .setFeature _ => none
  | .pageRead _ | .randomRead _ | .cacheReadBegin _ | .cacheReadCont _ => none
  | .pageProgram _ | .rprogBegin _ | .rprogInput _ | .rprogEnd _ | .cacheProgram _ | .blockErase _ => none
  | .tpProgP1 _ | .tpProgP2 _ | .tpCacheP2 _ | .tpEraseP1 _ | .tpEraseP2 _ => none

/-- What the run of a bulk operation i, requested by the host in s, has not touched in t: the request
registers, OVR, the session and what the outside does and sees. -/
def RunFrame (s t : State) (i : Instr) : Prop :=
  t.cfg = s.cfg ∧ t.regs = { s.regs with ctrlOp := i.opcode, ctrlL := i.lastFlag }
  ∧ t.st.ovr = s.st.ovr ∧ t.st.session = s.st.session ∧ t.env.inputs = s.env.inputs
  ∧ t.env.reads = s.env.reads

/-- The run is over with result r: STATUS and the bus (R275, R300, R146). -/
def RunEnded (t : State) (r : Result) : Prop :=
  t.st.busy = false ∧ t.st.done = true ∧ t.st.result = r ∧ t.bulk.active = false ∧ t.seq.pc = .idle
  ∧ t.seq.resume = none ∧ t.pins.cle = false ∧ t.pins.ale = false ∧ t.pins.weN = true ∧ t.pins.reN = true
  ∧ t.pins.ceN = true

/-- The run of the operation requested in s waits in t for the host, at a stream request of direction d
in the hold p (R272, R273). -/
def RunHolds (s t : State) (d : Bool) (p : RetryPt) : Prop :=
  t.st.busy = true ∧ t.st.done = false ∧ t.st.result = s.st.result ∧ t.seq.pc = .bulk p
  ∧ t.bulk.streamReq = true ∧ t.bulk.streamDir = d ∧ holding t = true ∧ t.pins.ceN = true

/-- An operation that the retry controller issued between s and t has ended with result r, and the retry
controller stands at p (R266, R300): the cycles es, answered by `used` answers, LAST_SR sr, and nothing
else changed but the sequencer's own registers and what the buffers and bulk.phase are said to hold. -/
def Issued (s t : State) (p : RetryPt) (r : Result) (es : List Event) (used : Nat) (sr : Byte) : Prop :=
  Observed s t es used ∧ t.cfg = s.cfg ∧ t.regs = s.regs ∧ t.ids = s.ids
  ∧ t.st = { s.st with lastSr := sr }
  ∧ t.bulk = { s.bulk with lastResult := r, phase := t.bulk.phase }
  ∧ t.seq.pc = .bulk p ∧ t.seq.resume = none
  ∧ t.pins.cle = false ∧ t.pins.ale = false ∧ t.pins.weN = true ∧ t.pins.reN = true ∧ t.pins.ceN = true
  ∧ t.env.inputs = s.env.inputs ∧ t.env.reads = s.env.reads

/-- A verify applies to the units of the run (R268, R269). -/
def verifyApplies (s : State) : Bool :=
  match s.bulk.mode with
  | .read => s.cfg.readVerify
  | .write => s.cfg.writeVerify
  | .erase => false
  | .none => false

/-- An operation with a ready wait and a final status read, issued by the retry controller in s, has ended
in t, and the retry controller stands at p: Busy at the busy check, or, after the cycles es of its own,
what the wait and the status of the device make of it (R153, R216, R266, R302, R303). -/
def IssuedWaitStatus (s t : State) (p : RetryPt) (failed : Result) (es : List Event) : Prop :=
  let m := s.cfg.thrFlash.toNat
  (readyAt s 0 = false → Issued s t p .busy (sampleEvents s 0) 1 (lastSrAt s 0))
  ∧ (∀ j, readyAt s 0 = true → ReadyAfter s 1 j →
      Issued s t p (if statusFailed (answerByte s (j + 2)) then failed else .success)
        (sampleEvents s 0 ++ es ++ pollEvents s 1 (j + 1) ++ statusEvents s (j + 2)) (j + 3)
        (answerByte s (j + 2)))
  ∧ (readyAt s 0 = true → NeverReady s 1 →
      Issued s t p .operationTimeout (sampleEvents s 0 ++ es ++ pollEvents s 1 (m + 1)) (m + 2)
        (lastSrAt s (m + 1)))

/-- Between s and t the retry controller made a move of its own to p: no operation, no bus event, nothing
the host reads changed but bulk registers (R42). A comparison of the buffers counts as a reading (log 4). -/
def Moved (s t : State) (p : RetryPt) : Prop :=
  t.cfg = s.cfg ∧ t.regs = s.regs ∧ t.st = s.st ∧ t.ids = s.ids ∧ t.pins = s.pins
  ∧ t.bufA = s.bufA ∧ t.bufC = s.bufC ∧ t.seq = { s.seq with pc := .bulk p }
  ∧ t.env = { s.env with frees := t.env.frees }

/-- Where a unit goes when it is over: Drain in a read run, else Advance (R263, R273). -/
def afterUnit (s : State) : RetryPt := if s.bulk.mode = .read then .drainHold else .advance

/-- The bulk registers there: Drain has requested the stream of a read unit (R273). -/
def unitOverBulk (b : Bulk) : Bulk :=
  if b.mode = .read then { b with phase := .drain, streamDir := false, streamReq := true } else b

/-- A failed attempt between s and t, with r in LAST_RESULT (R263, R270): another attempt on the unit, or,
past RETRY_MAX, the unit is logged bad, unless the log is full (R44), and is over. -/
def AttemptFails (s t : State) (r : Result) : Prop :=
  t.bulk.fails.toNat = s.bulk.fails.toNat + 1
  ∧ (s.bulk.fails.toNat < s.cfg.retryMax →
      Moved s t .validate ∧ t.bulk = { s.bulk with fails := t.bulk.fails, lastResult := r })
  ∧ (s.bulk.fails.toNat = s.cfg.retryMax →
      Moved s t (afterUnit s)
      ∧ t.bulk.badCount.toNat = min (s.bulk.badCount.toNat + 1) (2 ^ 32 - 1)
      ∧ t.bulk = unitOverBulk { s.bulk with
          fails := t.bulk.fails, lastResult := r, badCount := t.bulk.badCount
          badLog := if s.bulk.badLog.length < s.cfg.badLogDepth then
            s.bulk.badLog ++ [s.bulk.unit] else s.bulk.badLog })

/-- The identity of the first READ_ID of the run, read from answer 1 on, is stored and captured (R262). -/
def IdCaptured (s t : State) : Prop :=
  IdStored s 1 t.ids.idLo t.ids.idHi ∧ t.ids.capLo = t.ids.idLo ∧ t.ids.capHi = t.ids.idHi
  ∧ t.st.idcap = true

/-! ### The invariant -/

/-- The retry controller is in an attempt on a unit at p (R263). -/
def inAttempt : RetryPt → Bool
  | .validate => true
  | .validated => true
  | .execute => true
  | .executed => true
  | .verified => true
  | .capture => false
  | .captured => false
  | .loopHead => false
  | .fillHold => false
  | .drainHold => false
  | .advance => false
  | .finish => false

/-- An attempt is under way: the retry controller stands in it, or waits in it for an operation. -/
def attempting (s : State) : Bool :=
  match s.seq.pc, s.seq.resume with
  | .bulk p, _ => inAttempt p
  | .exec _ _, some p => inAttempt p
  | .exec _ _, none => false
  | .idle, _ => false

/-- A bulk run is under way: the retry controller moves, or waits for an operation it issued (R313). -/
def bulkRunning (s : State) : Bool :=
  match s.seq.pc, s.seq.resume with
  | .bulk _, _ => true
  | .exec _ _, some _ => true
  | .exec _ _, none => false
  | .idle, _ => false

/-- The buffers are in canonical form: indices rising and below BUF_WORDS, no word wider than the bus
(R72, R73). -/
def BuffersWf (s : State) : Prop := Memory.wf s.cfg s.bufA = true ∧ Memory.wf s.cfg s.bufC = true

/-- BUSY = 1 exactly while the block is not IDLE (R27, R36, R300), DONE = 0 while BUSY = 1 (R27), and an
internal operation is open only while the sequencer runs (R313). -/
def ControlWf (s : State) : Prop :=
  (s.st.busy = false ↔ s.seq.pc = .idle) ∧ (s.st.busy = true → s.st.done = false)
  ∧ (s.seq.resume ≠ none → ∃ op k, s.seq.pc = .exec op k)

/-- Between micro-operations the bus is at rest (R114), and CE# is 1 in IDLE and between the internal
operations of a bulk run (R114, R148); that it is 1 after the start of the run too is DEDUCED (log 11). -/
def PinsWf (s : State) : Prop :=
  s.pins.cle = false ∧ s.pins.ale = false ∧ s.pins.weN = true ∧ s.pins.reN = true
  ∧ ((∀ op k, s.seq.pc ≠ .exec op k) → s.pins.ceN = true)

/-- The bad-unit FIFO holds at most BAD_LOG_DEPTH entries (R44), and the reserved halves of ID_HI and
CAPID_HI are 0 (R31, R43). -/
def RegsWf (s : State) : Prop :=
  s.bulk.badLog.length ≤ s.cfg.badLogDepth
  ∧ s.ids.idHi.toNat < 2 ^ 16 ∧ s.ids.capHi.toNat < 2 ^ 16

/-- During an attempt at most RETRY_MAX attempts on the unit have failed, and never more than
RETRY_MAX + 1 (R270, R35). -/
def RetryWf (s : State) : Prop :=
  s.bulk.fails.toNat ≤ s.cfg.retryMax + 1 ∧ (attempting s = true → s.bulk.fails.toNat ≤ s.cfg.retryMax)

/-- The retry controller's point is inside a unit (R263). -/
def inUnit : RetryPt → Bool
  | .fillHold => true
  | .validate => true
  | .validated => true
  | .execute => true
  | .executed => true
  | .verified => true
  | .drainHold => true
  | .advance => true
  | .capture => false
  | .captured => false
  | .loopHead => false
  | .finish => false

/-- A unit of a bulk run is under way. -/
def unitOpen (s : State) : Bool :=
  match s.seq.pc, s.seq.resume with
  | .bulk p, _ => inUnit p
  | .exec _ _, some p => inUnit p
  | .exec _ _, none => false
  | .idle, _ => false

/-- The units finished and the units still to do are BULK_COUNT's copy together, a unit is under way only
while one is left, and PROGRESS is a percentage (R42, R271, R276, R35). -/
def CountWf (s : State) : Prop :=
  s.bulk.unitsDone.toNat + s.bulk.left.toNat = s.bulk.count.toNat
  ∧ (unitOpen s = true → s.bulk.left ≠ 0) ∧ s.bulk.progress.toNat ≤ 100

/-- "tmr.cnt never exceeds tmr.thr" (R155). -/
def TimerWf (s : State) : Prop := s.seq.tmrCnt.toNat ≤ s.seq.tmrThr.toNat

/-- BULK_INFO.ACTIVE is 1 exactly while a bulk run is in progress (R35). -/
def ActiveWf (s : State) : Prop := s.bulk.active = bulkRunning s

/-- The machine's invariant. -/
def Inv (s : State) : Prop :=
  BuffersWf s ∧ ControlWf s ∧ PinsWf s ∧ RegsWf s ∧ RetryWf s ∧ CountWf s ∧ TimerWf s ∧ ActiveWf s

end Sys2Proof.Machine
end

