-- ==== Sys2Proof/WellFormed.lean ====
section
/-! DEFINITION. Which operations a configuration has: the one check a term can fail is R103's. -/

namespace Sys2Proof

/-- READ_STATUS_ENH is an operation of the block only when HAS_ENH_STATUS = 1 (R103, R172); every other
constructor, with either value of L, is one in every configuration. -/
def Instr.wellFormed (c : Config) : Instr → Bool
  | .readStatusEnh _ => c.hasEnhStatus
  | .readId _ | .readStatus _ | .getFeature _ | .setFeature _ => true
  | .pageRead _ | .randomRead _ | .cacheReadBegin _ | .cacheReadCont _ => true
  | .pageProgram _ | .rprogBegin _ | .rprogInput _ | .rprogEnd _ | .cacheProgram _ | .blockErase _ => true
  | .tpProgP1 _ | .tpProgP2 _ | .tpCacheP2 _ | .tpEraseP1 _ | .tpEraseP2 _ => true
  | .bulkRead _ | .bulkWrite _ | .bulkErase _ => true

end Sys2Proof
end

