-- ==== Sys2Proof/Certificates/Slice0/Obligations.lean ====
section
/-! DEFINITION. The statements put to the provers. Each says which rules of spec/ it formalises. -/

section Statements

open Sys2Proof Sys2Proof.Machine

/-! ### Encoding (R100 to R103) -/

/-- R101: decoding the word of an operation gives it back, and a word requests exactly the operation whose
word it is once the reserved bits are dropped. -/
def Obligations.DecodeEncode : Prop :=
  (∀ (c : Config) (i : Instr), i.wellFormed c = true → decode (encode i) = .ok i)
  ∧ ∀ (w : BitVec 32) (i : Instr), decode w = .ok i ↔ w &&& 0x800001FF#32 = encode i

/-- R103: with START = 1, exactly the listed values of OP are illegal. -/
def Obligations.IllegalOpcodes : Prop :=
  ∀ w : BitVec 32, ctrlWordStart w = true →
    let op := (ctrlWordOp w).toNat
    (decode w = .error (.illegalOp (ctrlWordOp w)) ↔
      op = 0x00 ∨ (0x06 ≤ op ∧ op ≤ 0x0F) ∨ (0x14 ≤ op ∧ op ≤ 0x1F) ∨ (0x25 ≤ op ∧ op ≤ 0x2F)
      ∨ (0x31 ≤ op ∧ op ≤ 0x3F) ∨ (0x43 ≤ op ∧ op ≤ 0x47) ∨ (0x4A ≤ op ∧ op ≤ 0x5F) ∨ 0x63 ≤ op)

/-- R101, R102: a word of each family, written out from the map, decodes to its operation. -/
def Obligations.DecodeWords : Prop :=
  decode 0x80000001#32 = .ok (.readId false) ∧ decode 0x80000112#32 = .ok (.cacheReadBegin true)
  ∧ decode 0x80000113#32 = .ok (.cacheReadCont true) ∧ decode 0xFFFFFE24#32 = .ok (.cacheProgram false)
  ∧ decode 0x80000030#32 = .ok (.blockErase false) ∧ decode 0x80000142#32 = .ok (.tpCacheP2 true)
  ∧ decode 0x80000062#32 = .ok (.bulkErase false) ∧ decode 0x00000001#32 = .error .noStart

/-! ### The step -/

/-- R23, R100: when the outside's next input is a host write of CTRL whose word decodes to i, the step is
exec of i, in the state from which that input has been taken. -/
def Obligations.StepRunsDecoded : Prop :=
  ∀ (s : State) (w : BitVec 32) (i : Instr) (r : List Input), s.cfg.wf = true →
    s.env.inputs = .access (.write 0x00 4 w) :: r → decode w = .ok i →
    step s = exec i (setInputs r s)

/-- R75, R76, R23: any other aligned host access is one step: a read gives the value to the host, a write
(of CTRL with START = 0) leaves what it writes. With no access due the step is the block's turn, and a
polling loop of R132 reads once in each step; how a turn is cut is the model's own form (log 1). -/
def Obligations.StepHostAccess : Prop :=
  ∀ (s : State) (r : List Input), s.cfg.wf = true →
    let u := setInputs r s
    (∀ off : Byte, off.toNat % 4 = 0 → s.env.inputs = .access (.read off 4) :: r →
      let v := hostRead off u
      step s = .next { v.2 with env := { v.2.env with reads := s.env.reads ++ [v.1] } })
    ∧ (∀ (off : Byte) (v : Reg), off.toNat % 4 = 0 → s.env.inputs = .access (.write off 4 v) :: r →
      (off = 0x00 → ctrlWordStart v = false) → step s = .next (hostWrite off v u))
    ∧ (s.env.inputs = [] → step s = .next (drive (budget s) s))
    ∧ (∀ n, s.env.inputs = .pause n :: r → step s = .next (drive n u))
    ∧ ∀ x off bit, (x, off, bit) = (Input.waitDone, 0x14#8, s.st.done)
        ∨ (x, off, bit) = (Input.waitStream, 0x3C#8, s.bulk.streamReq) → s.env.inputs = x :: r →
      let w := { s with env := { s.env with reads := s.env.reads ++ [plainRead s off] } }
      step s = .next (if bit then setInputs r w else drive (budget s) w)

/-- R13, R75: a configuration that is not well formed is refused, and so is a host access of another
width or alignment. -/
def Obligations.StepRefuses : Prop :=
  (∀ s : State, s.cfg.wf = false → step s = .refused .badConfig)
  ∧ ∀ (s : State) (a : Access) (r : List Input), s.cfg.wf = true → s.env.inputs = .access a :: r →
    accessAligned a = false → step s = .refused .badAccess

/-! ### Reset (R52, R340) -/

/-- R52: what reset leaves. A word of a buffer is a draw, in the model a free value of the reading counter,
whatever that counter holds: the model's reading (DEDUCED, log 4). -/
def Obligations.ResetValues : Prop :=
  ∀ c : Config, let s := resetOf c
    ctrlWord s = 0 ∧ s.regs.addr = 0 ∧ s.regs.len = 0 ∧ s.regs.faddr = 0 ∧ s.regs.fdata = 0
    ∧ statusWord s = 0 ∧ s.st.session = .none ∧ s.regs.bufPtr = 0
    ∧ (∀ i, memRead s i = busWord c (Config.freeWordA s.env.frees i))
    ∧ (∀ i, cRead s i = busWord c (Config.freeWordC s.env.frees i))
    ∧ s.ids = { idLo := 0, idHi := 0, capLo := 0, capHi := 0 } ∧ s.regs.wpctl = false ∧ wpPin s = false
    ∧ (hostRead 0x2C s).1 = cfgWord c
    ∧ s.regs.bulkStart = 0 ∧ s.regs.bulkCount = 0 ∧ s.bulk.unit = 0 ∧ bulkInfoWord s = 0
    ∧ s.bulk.badLog = [] ∧ s.bulk.badCount = 0 ∧ s.bulk.idRetries = 0
    ∧ s.seq.pc = .idle ∧ s.seq.cur = { op := 0, l := false, addr := 0, len := 0, faddr := 0, fdata := 0 }
    ∧ s.seq.wcnt = 0 ∧ s.seq.sr = 0 ∧ s.seq.tmrCnt = 0 ∧ s.seq.tmrThr = 0
    ∧ s.bulk.mode = .none ∧ s.bulk.phase = .capture
    ∧ s.bulk.left = 0 ∧ s.bulk.count = 0 ∧ s.bulk.unitsDone = 0 ∧ s.bulk.fails = 0
    ∧ s.bulk.streamReq = false ∧ s.bulk.streamDir = false ∧ s.bulk.abortReq = false
    ∧ s.bulk.aborted = false
    ∧ s.pins.dir = .inn ∧ ioDriven s = none ∧ s.pins.cle = false ∧ s.pins.ale = false
    ∧ s.pins.weN = true ∧ s.pins.reN = true ∧ s.pins.ceN = true

/-- R340: RST gives every piece of state its reset value at once, whatever the block is doing. -/
def Obligations.RstStep : Prop :=
  ∀ (s : State) (r : List Input), s.cfg.wf = true → s.env.inputs = .rst :: r →
    step s = .next { resetOf s.cfg with env := { s.env with inputs := r } }

/-! ### The host register window (R20 to R46, R53, R74) -/

/-- R23, R53: every operation requested while BUSY = 1 is refused, and only OVR changes. -/
def Obligations.BusyRequestRefused : Prop :=
  ∀ (i : Instr) (s : State), s.st.busy = true →
    exec i s = .next { s with st := { s.st with ovr := true } }

/-- R53, R44: host reads and writes of every offset while BUSY = 1. The model's own: that a refused read of
BUF_PTR sets OVR (log 5), that a write of a read-only register is ignored without OVR (log 17), and that a
write of BAD_LOG is (log 20). -/
def Obligations.AccessWhileBusy : Prop :=
  ∀ (s : State) (v : Reg), s.st.busy = true →
    (∀ off ∈ [0x00#8, 0x04#8, 0x08#8, 0x0C#8, 0x10#8, 0x28#8, 0x30#8, 0x34#8],
      hostWrite off v s = { s with st := { s.st with ovr := true } })
    ∧ hostWrite 0x14 v s = writeStatus v s ∧ hostWrite 0x40 v s = writeStream v s
    ∧ (s.bulk.streamReq = false →
        hostWrite 0x18 v s = { s with st := { s.st with ovr := true } }
        ∧ hostWrite 0x1C v s = { s with st := { s.st with ovr := true } }
        ∧ hostRead 0x1C s = (0, { s with st := { s.st with ovr := true } })
        ∧ (hostRead 0x18 s).2.st = { s.st with ovr := true }
        ∧ (hostRead 0x18 s).2.regs = s.regs ∧ (hostRead 0x18 s).2.bufA = s.bufA)
    ∧ (s.bulk.streamReq = true →
        hostWrite 0x18 v s = { s with regs := { s.regs with bufPtr := v.setWidth 16 } }
        ∧ hostRead 0x18 s = (s.regs.bufPtr.setWidth 32, s)
        ∧ (hostWrite 0x1C v s).regs.bufPtr = s.regs.bufPtr + 1 ∧ (hostWrite 0x1C v s).st = s.st
        ∧ (hostRead 0x1C s).2.regs.bufPtr = s.regs.bufPtr + 1 ∧ (hostRead 0x1C s).2.st = s.st)
    ∧ (∀ off, off ∉ [0x00#8, 0x04#8, 0x08#8, 0x0C#8, 0x10#8, 0x14#8, 0x18#8, 0x1C#8, 0x28#8, 0x30#8, 0x34#8,
        0x40#8] → hostWrite off v s = s)
    ∧ (∀ off, off ≠ 0x18#8 → off ≠ 0x1C#8 → off ≠ 0x48#8 → hostRead off s = (plainRead s off, s))
    ∧ hostRead 0x48 s =
        (s.bulk.badLog.headD 0xFFFFFFFF, { s with bulk := { s.bulk with badLog := s.bulk.badLog.tail } })

/-- R28: a host write of STATUS. -/
def Obligations.StatusWrite : Prop :=
  ∀ (s : State) (v : Reg), hostWrite 0x14 v s =
    { s with st := { s.st with ovr := s.st.ovr && !v.getLsbD 2 } }

/-- R74: BUF_DATA, when the access is accepted. -/
def Obligations.BufData : Prop :=
  ∀ (s : State) (v : Reg), s.st.busy = false ∨ s.bulk.streamReq = true →
    (hostRead 0x1C s).1 =
      (if s.regs.bufPtr.toNat < s.cfg.bufWords then (memRead s s.regs.bufPtr.toNat).setWidth 32 else 0)
    ∧ (hostRead 0x1C s).2.regs = { s.regs with bufPtr := s.regs.bufPtr + 1 }
    ∧ (hostRead 0x1C s).2.bufA = s.bufA ∧ (hostRead 0x1C s).2.st = s.st
    ∧ (hostWrite 0x1C v s).regs = { s.regs with bufPtr := s.regs.bufPtr + 1 }
    ∧ (hostWrite 0x1C v s).st = s.st
    ∧ (s.regs.bufPtr.toNat < s.cfg.bufWords →
        memRead (hostWrite 0x1C v s) s.regs.bufPtr.toNat = busWord s.cfg (v.setWidth 16)
        ∧ ∀ i, i ≠ s.regs.bufPtr.toNat → memRead (hostWrite 0x1C v s) i = memRead s i)
    ∧ (s.cfg.bufWords ≤ s.regs.bufPtr.toNat → (hostWrite 0x1C v s).bufA = s.bufA)

/-- R27: the fields of STATUS as a host reads them, the reserved bits 0. -/
def Obligations.StatusRead : Prop :=
  ∀ s : State, let v := (hostRead 0x14 s).1
    v.getLsbD 0 = s.st.busy ∧ v.getLsbD 1 = s.st.done ∧ v.getLsbD 2 = s.st.ovr ∧ v.getLsbD 3 = false
    ∧ v.extractLsb' 4 4 = resultCode s.st.result ∧ v.extractLsb' 8 8 = s.st.lastSr
    ∧ v.extractLsb' 16 3 = sessionCode s.st.session ∧ v.getLsbD 19 = s.st.idcap
    ∧ v.extractLsb' 20 12 = 0

/-- R33: the fields of CFG, the reserved bits 0; a host write leaves everything alone. That it sets no OVR
while BUSY = 1 is the model's reading (DEDUCED, log 17). -/
def Obligations.CfgRead : Prop :=
  ∀ (s : State) (w : Reg), s.cfg.wf = true → let v := (hostRead 0x2C s).1
    v.getLsbD 0 = (s.cfg.busWidth == 16) ∧ v.getLsbD 1 = s.cfg.addrConvert
    ∧ v.getLsbD 2 = decide (s.cfg.planeMode = .onfi) ∧ v.getLsbD 3 = (s.cfg.rowCycles == 3)
    ∧ (v.extractLsb' 4 3).toNat = s.cfg.idBytes ∧ v.getLsbD 7 = decide (s.cfg.rbSource = .rbPin)
    ∧ v.getLsbD 8 = (s.cfg.readyBit == 7) ∧ v.getLsbD 9 = s.cfg.readVerify
    ∧ v.getLsbD 10 = s.cfg.writeVerify ∧ v.getLsbD 11 = s.cfg.includeSpare
    ∧ v.getLsbD 12 = s.cfg.hasEnhStatus ∧ v.extractLsb' 13 3 = 0
    ∧ (v.extractLsb' 16 5).toNat = s.cfg.rowShift ∧ v.extractLsb' 21 11 = 0
    ∧ hostWrite 0x2C w s = s

/-- R35: the fields of BULK_INFO, the reserved bits 0. -/
def Obligations.BulkInfoRead : Prop :=
  ∀ s : State, let v := (hostRead 0x3C s).1
    v.extractLsb' 0 3 = s.bulk.fails ∧ v.extractLsb' 3 5 = 0 ∧ v.extractLsb' 8 8 = s.bulk.progress
    ∧ v.getLsbD 16 = s.bulk.streamReq ∧ v.getLsbD 17 = s.bulk.streamDir
    ∧ v.getLsbD 18 = s.bulk.aborted ∧ v.getLsbD 19 = s.bulk.active
    ∧ v.extractLsb' 20 4 = resultCode s.bulk.lastResult ∧ v.extractLsb' 24 8 = 0

/-- R20 to R26, R29, R31, R32, R34, R43 to R45: a write of a request register while BUSY = 0, and what it
reads as after; what the read-only registers read as, and that they ignore writes (of BAD_LOG this is the
model's choice, log 20); STREAM reads 0; an unlisted offset reads 0 and ignores writes. A CTRL write here
has START = 0 (R23). -/
def Obligations.HostRegisters : Prop :=
  ∀ (s : State) (v : Reg), s.st.busy = false →
    let wr := fun off => hostWrite off v s
    (wr 0x00 = { s with regs := { s.regs with ctrlOp := v.setWidth 8, ctrlL := v.getLsbD 8 } }
      ∧ (hostRead 0x00 (wr 0x00)).1 = v &&& 0x1FF)
    ∧ (wr 0x04 = { s with regs := { s.regs with addr := v } } ∧ (hostRead 0x04 (wr 0x04)).1 = v)
    ∧ (wr 0x08 = { s with regs := { s.regs with len := v.setWidth 16 } }
      ∧ (hostRead 0x08 (wr 0x08)).1 = v &&& 0xFFFF)
    ∧ (wr 0x0C = { s with regs := { s.regs with faddr := v.setWidth 8 } }
      ∧ (hostRead 0x0C (wr 0x0C)).1 = v &&& 0xFF)
    ∧ (wr 0x10 = { s with regs := { s.regs with fdata := v } } ∧ (hostRead 0x10 (wr 0x10)).1 = v)
    ∧ (wr 0x18 = { s with regs := { s.regs with bufPtr := v.setWidth 16 } }
      ∧ (hostRead 0x18 (wr 0x18)).1 = v &&& 0xFFFF)
    ∧ (wr 0x28 = { s with regs := { s.regs with wpctl := v.getLsbD 0 } }
      ∧ (hostRead 0x28 (wr 0x28)).1 = v &&& 1 ∧ wpPin (wr 0x28) = v.getLsbD 0)
    ∧ (wr 0x30 = { s with regs := { s.regs with bulkStart := v } } ∧ (hostRead 0x30 (wr 0x30)).1 = v)
    ∧ (wr 0x34 = { s with regs := { s.regs with bulkCount := v } } ∧ (hostRead 0x34 (wr 0x34)).1 = v)
    ∧ (hostRead 0x20 s = (s.ids.idLo, s) ∧ hostRead 0x24 s = (s.ids.idHi, s)
      ∧ hostRead 0x38 s = (s.bulk.unit, s) ∧ hostRead 0x44 s = (s.bulk.badCount, s)
      ∧ hostRead 0x4C s = (s.bulk.idRetries, s) ∧ hostRead 0x50 s = (s.ids.capLo, s)
      ∧ hostRead 0x54 s = (s.ids.capHi, s) ∧ hostRead 0x40 s = (0, s))
    ∧ (∀ off ∈ [0x20#8, 0x24#8, 0x2C#8, 0x38#8, 0x3C#8, 0x44#8, 0x48#8, 0x4C#8, 0x50#8, 0x54#8], wr off = s)
    ∧ ∀ off : Byte, 0x55 ≤ off.toNat → hostRead off s = (0, s) ∧ wr off = s

/-- R46: a host write of STREAM, whether BUSY is 0 or 1. -/
def Obligations.StreamWrite : Prop :=
  ∀ (s : State) (v : Reg), let t := hostWrite 0x40 v s
    t.bulk = { s.bulk with streamReq := t.bulk.streamReq, abortReq := t.bulk.abortReq }
    ∧ t = { s with bulk := t.bulk }
    ∧ (v.getLsbD 0 = true ∧ s.bulk.streamReq = true → t.bulk.streamReq = false)
    ∧ (¬ (v.getLsbD 0 = true ∧ s.bulk.streamReq = true) → t.bulk.streamReq = s.bulk.streamReq)
    ∧ (v.getLsbD 1 = true ∧ s.bulk.active = true → t.bulk.abortReq = true)
    ∧ (¬ (v.getLsbD 1 = true ∧ s.bulk.active = true) → t.bulk.abortReq = s.bulk.abortReq)

/-- R44: a host read of BAD_LOG, whether BUSY is 0 or 1. -/
def Obligations.BadLogRead : Prop :=
  ∀ s : State,
    (s.bulk.badLog = [] → hostRead 0x48 s = (0xFFFFFFFF, s))
    ∧ ∀ u rest, s.bulk.badLog = u :: rest →
      hostRead 0x48 s = (u, { s with bulk := { s.bulk with badLog := rest } })

/-! ### Bus cycles and addresses (R77, R111 to R120, R141, R265) -/

/-- R140 to R145, R111 to R114: a direction switch, the pins in command, address, data write and data read
cycles, and the pins and the trace after each. -/
def Obligations.BusCycles : Prop :=
  (∀ (s : State) (d : Dir), (setDir d s).pins.dir = d
    ∧ (s.pins.dir ≠ d → (setDir d s).env.trace = s.env.trace ++ [.dir d])
    ∧ (s.pins.dir = d → (setDir d s).env.trace = s.env.trace))
  ∧ (∀ (c : Byte) (p : Pins), (cmdLow c p).cle = true ∧ (cmdLow c p).ale = false ∧ (cmdLow c p).weN = false
    ∧ (cmdLow c p).ioOut = c.setWidth 16)
  ∧ (∀ (b : Byte) (p : Pins), (addrLow b p).cle = false ∧ (addrLow b p).ale = true
    ∧ (addrLow b p).weN = false ∧ (addrLow b p).ioOut = b.setWidth 16)
  ∧ (∀ (w : Word) (p : Pins), (writeLow w p).cle = false ∧ (writeLow w p).ale = false
    ∧ (writeLow w p).weN = false ∧ (writeLow w p).ioOut = w
    ∧ (readLow p).cle = false ∧ (readLow p).ale = false ∧ (readLow p).reN = false)
  ∧ (∀ s : State, s.pins.dir = .inn →
    (readCycle s).pins = { busRest s.pins with ceN := false } ∧ ioDriven (readCycle s) = none
    ∧ (readCycle s).env.trace = s.env.trace ++ [.rd (answer s 0)]
    ∧ (readCycle s).env.answers = s.env.answers.drop 1 ∧ (readCycle s).env.draws = s.env.draws + 1)
  ∧ ∀ s : State, s.pins.dir = .out →
    (∀ c : Byte, (cmdCycle c s).pins = { busRest s.pins with ceN := false, ioOut := c.setWidth 16 }
      ∧ ioDriven (cmdCycle c s) = some (c.setWidth 16)
      ∧ (cmdCycle c s).env.trace = s.env.trace ++ [.cmd c])
    ∧ (∀ b : Byte, (addrCycle b s).pins = { busRest s.pins with ceN := false, ioOut := b.setWidth 16 }
      ∧ (addrCycle b s).env.trace = s.env.trace ++ [.addr b])
    ∧ ∀ w : Word, (writeCycle w s).pins = { busRest s.pins with ceN := false, ioOut := w }
      ∧ (writeCycle w s).env.trace = s.env.trace ++ [.wr w]

/-- R77, R116 to R118: the bytes of the full address group, low byte first; R80: row bits at or above
8 × ROW_CYCLES are not sent. -/
def Obligations.AddressBytes : Prop :=
  ∀ (c : Config) (a : Reg), c.wf = true →
    (fullGroup c a).length = 2 + c.rowCycles
    ∧ (∀ k < 2, ((fullGroup c a).getD k 0).toNat = a.toNat % 2 ^ c.rowShift / 2 ^ (8 * k) % 2 ^ 8)
    ∧ (∀ k < c.rowCycles,
        ((fullGroup c a).getD (2 + k) 0).toNat = a.toNat / 2 ^ c.rowShift / 2 ^ (8 * k) % 2 ^ 8)
    ∧ rowGroup c a = (fullGroup c a).drop 2 ∧ colGroup c a = (fullGroup c a).take 2
    ∧ ∀ b : Reg, a.toNat % 2 ^ (c.rowShift + 8 * c.rowCycles) = b.toNat % 2 ^ (c.rowShift + 8 * c.rowCycles) →
      fullGroup c a = fullGroup c b

/-- R120: the plane address forces the one row bit PB and keeps the column and every other row bit. -/
def Obligations.PlaneAddress : Prop :=
  ∀ (c : Config) (a : Reg) (p : Bool), c.wf = true →
    let pb := if c.planeMode = .onfi then c.planeBitOnfi else c.planeBitTrad
    col c (paddr c a p) = col c a
    ∧ ∀ i, i + c.rowShift < 32 →
      (row c (paddr c a p)).getLsbD i = if i = pb then p else (row c a).getLsbD i

/-- R265: the addresses of page and block units, column 0 of row u and the first page of block u. -/
def Obligations.UnitAddresses : Prop :=
  ∀ (c : Config) (u : Reg), c.wf = true →
    (pageUnitAddr c u).toNat = u.toNat * 2 ^ c.rowShift % 2 ^ 32
    ∧ (blockUnitAddr c u).toNat = u.toNat * c.pagesPerBlock * 2 ^ c.rowShift % 2 ^ 32
    ∧ col c (pageUnitAddr c u) = 0 ∧ (row c (pageUnitAddr c u)).toNat = u.toNat % 2 ^ (32 - c.rowShift)
    ∧ col c (blockUnitAddr c u) = 0
    ∧ (row c (blockUnitAddr c u)).toNat = u.toNat * c.pagesPerBlock % 2 ^ (32 - c.rowShift)

/-! ### Identity, status and features (R170 to R174) -/

/-- R170: READ_ID. -/
def Obligations.ReadId : Prop :=
  ∀ (s : State) (l : Bool), s.cfg.wf = true → Startable s .none →
    ∃ t, exec (.readId l) s = .next t ∧ SeqFrame s t 0x01
      ∧ (readyAt s 0 = false → EndedBusy s t 0x01 l)
      ∧ (readyAt s 0 = true →
          Ended s t 0x01 l .success .none ∧ Observed s t (readIdEvents s 0) (1 + s.cfg.idBytes)
          ∧ IdStored s 1 t.ids.idLo t.ids.idHi ∧ t.st.lastSr = lastSrAt s 0
          ∧ t.regs.fdata = s.regs.fdata ∧ t.bufA = s.bufA)

/-- R171: READ_STATUS. -/
def Obligations.ReadStatus : Prop :=
  ∀ (s : State) (l : Bool), s.cfg.wf = true → Startable s .none →
    ∃ t, exec (.readStatus l) s = .next t ∧ SeqFrame s t 0x02
      ∧ EndedAs s t 0x02 l .success .none (statusEvents s 0) 1 (answerByte s 0)

/-- R172, R103: READ_STATUS_ENH, and InvalidCommand when HAS_ENH_STATUS = 0, when CTRL and the latched
request are written all the same (log 12). -/
def Obligations.ReadStatusEnh : Prop :=
  ∀ (s : State) (l : Bool), s.cfg.wf = true → Startable s .none →
    ∃ t, exec (.readStatusEnh l) s = .next t ∧ SeqFrame s t 0x03
      ∧ (s.cfg.hasEnhStatus = true →
          EndedAs s t 0x03 l .success .none
            ([.cmd s.cfg.enhStatusCmd] ++ addrEvents (rowGroup s.cfg s.regs.addr) ++ [.rd (answer s 0)])
            1 (answerByte s 0))
      ∧ (s.cfg.hasEnhStatus = false → Refused s t 0x03 l .invalidCommand .none)

/-- R173: GET_FEATURE. -/
def Obligations.GetFeature : Prop :=
  ∀ (s : State) (l : Bool), s.cfg.wf = true → Startable s .none →
    ∃ t, exec (.getFeature l) s = .next t ∧ SeqFrame s t 0x04
      ∧ (readyAt s 0 = false → EndedBusy s t 0x04 l)
      ∧ (readyAt s 0 = true →
          Ended s t 0x04 l .success .none
          ∧ Observed s t (sampleEvents s 0 ++ [.cmd 0xEE, .addr s.regs.faddr, .delay s.cfg.tFeatGet]
              ++ readEvents s 1 4) 5
          ∧ (∀ k < 4, byteOf k t.regs.fdata = answerByte s (1 + k)) ∧ t.st.lastSr = lastSrAt s 0
          ∧ t.ids = s.ids ∧ t.bufA = s.bufA)

/-- R174: SET_FEATURE. -/
def Obligations.SetFeature : Prop :=
  ∀ (s : State) (l : Bool), s.cfg.wf = true → Startable s .none →
    ∃ t, exec (.setFeature l) s = .next t ∧ SeqFrame s t 0x05
      ∧ (readyAt s 0 = false → EndedBusy s t 0x05 l)
      ∧ (readyAt s 0 = true →
          WaitEnds s t 0x05 l .operationTimeout .none
            (sampleEvents s 0 ++ [.cmd 0xEF, .addr s.regs.faddr] ++ featureEvents s.regs.fdata) 1)

/-! ### Reads (R190 to R193) -/

/-- R190: PAGE_READ. -/
def Obligations.PageRead : Prop :=
  ∀ (s : State) (l : Bool), s.cfg.wf = true → Startable s .none →
    s.regs.len.toNat ≤ s.cfg.bufWords →
    let n := s.regs.len.toNat
    ∃ t, exec (.pageRead l) s = .next t ∧ SeqFrame s t 0x10
      ∧ (readyAt s 0 = false → EndedBusy s t 0x10 l)
      ∧ (readyAt s 0 = true →
          Ended s t 0x10 l .success .none
          ∧ Observed s t (sampleEvents s 0 ++ pageSetupEvents s.cfg s.regs.addr ++ readEvents s 1 n) (1 + n)
          ∧ ReadIntoA s t 1 n ∧ t.st.lastSr = lastSrAt s 0)

/-- R191: RANDOM_READ. -/
def Obligations.RandomRead : Prop :=
  ∀ (s : State) (l : Bool), s.cfg.wf = true → Startable s .none →
    s.regs.len.toNat ≤ s.cfg.bufWords →
    let n := s.regs.len.toNat
    ∃ t, exec (.randomRead l) s = .next t ∧ SeqFrame s t 0x11
      ∧ Ended s t 0x11 l .success .none
      ∧ Observed s t ([.cmd 0x05] ++ addrEvents (colGroup s.cfg s.regs.addr) ++ [.cmd 0xE0]
          ++ readEvents s 0 n) n
      ∧ ReadIntoA s t 0 n ∧ t.st.lastSr = s.st.lastSr

/-- R192: CACHE_READ_BEGIN at a page-aligned address. -/
def Obligations.CacheReadBegin : Prop :=
  ∀ (s : State) (l : Bool), s.cfg.wf = true → Startable s .none → col s.cfg s.regs.addr = 0 →
    ∃ t, exec (.cacheReadBegin l) s = .next t ∧ SeqFrame s t 0x12
      ∧ (readyAt s 0 = false → EndedBusy s t 0x12 l)
      ∧ (readyAt s 0 = true →
          EndedAs s t 0x12 l .success .cread (sampleEvents s 0 ++ pageSetupEvents s.cfg s.regs.addr) 1
            (lastSrAt s 0))

/-- R193: CACHE_READ_CONT. -/
def Obligations.CacheReadCont : Prop :=
  ∀ (s : State) (l : Bool), s.cfg.wf = true → Startable s .cread →
    s.regs.len.toNat ≤ s.cfg.bufWords →
    let n := s.regs.len.toNat
    ∃ t, exec (.cacheReadCont l) s = .next t ∧ SeqFrame s t 0x13
      ∧ Ended s t 0x13 l .success (if l then .none else .cread)
      ∧ Observed s t ([.cmd (if l then 0x3F else 0x31), .delay s.cfg.tRcbsy] ++ readEvents s 0 n) n
      ∧ ReadIntoA s t 0 n ∧ t.st.lastSr = s.st.lastSr

/-! ### Program and erase (R210 to R216) -/

/-- R210: PAGE_PROGRAM. -/
def Obligations.PageProgram : Prop :=
  ∀ (s : State) (l : Bool), s.cfg.wf = true → Startable s .none →
    s.regs.len.toNat ≤ s.cfg.bufWords →
    ∃ t, exec (.pageProgram l) s = .next t ∧ SeqFrame s t 0x20
      ∧ (readyAt s 0 = false → EndedBusy s t 0x20 l)
      ∧ (readyAt s 0 = true →
          WaitStatusEnds s t 0x20 l .operationTimeout .programFailed .none
            (sampleEvents s 0 ++ programEvents s s.regs.addr s.regs.len.toNat ++ [.cmd 0x10]) 1)

/-- R211: RPROG_BEGIN. -/
def Obligations.RprogBegin : Prop :=
  ∀ (s : State) (l : Bool), s.cfg.wf = true → Startable s .none →
    s.regs.len.toNat ≤ s.cfg.bufWords →
    ∃ t, exec (.rprogBegin l) s = .next t ∧ SeqFrame s t 0x21
      ∧ (readyAt s 0 = false → EndedBusy s t 0x21 l)
      ∧ (readyAt s 0 = true →
          EndedAs s t 0x21 l .success .rprog
            (sampleEvents s 0 ++ programEvents s s.regs.addr s.regs.len.toNat) 1 (lastSrAt s 0))

/-- R212: RPROG_INPUT. -/
def Obligations.RprogInput : Prop :=
  ∀ (s : State) (l : Bool), s.cfg.wf = true → Startable s .rprog →
    s.regs.len.toNat ≤ s.cfg.bufWords →
    ∃ t, exec (.rprogInput l) s = .next t ∧ SeqFrame s t 0x22
      ∧ EndedAs s t 0x22 l .success .rprog
          ([.cmd 0x85] ++ addrEvents (colGroup s.cfg s.regs.addr) ++ sentEvents s s.regs.len.toNat) 0
          s.st.lastSr

/-- R213: RPROG_END. -/
def Obligations.RprogEnd : Prop :=
  ∀ (s : State) (l : Bool), s.cfg.wf = true → Startable s .rprog →
    ∃ t, exec (.rprogEnd l) s = .next t ∧ SeqFrame s t 0x23 ∧ WaitEnds s t 0x23 l .programFailed .none [.cmd 0x10] 0

/-- R214: CACHE_PROGRAM. -/
def Obligations.CacheProgram : Prop :=
  ∀ (s : State) (l : Bool), s.cfg.wf = true → Startable s .none →
    s.regs.len.toNat ≤ s.cfg.bufWords →
    ∃ t, exec (.cacheProgram l) s = .next t ∧ SeqFrame s t 0x24
      ∧ (readyAt s 0 = false → EndedBusy s t 0x24 l)
      ∧ (readyAt s 0 = true →
          WaitEnds s t 0x24 l .programFailed .none
            (sampleEvents s 0 ++ programEvents s s.regs.addr s.regs.len.toNat
              ++ [.cmd (if l then 0x10 else 0x15)]) 1)

/-- R215: BLOCK_ERASE. -/
def Obligations.BlockErase : Prop :=
  ∀ (s : State) (l : Bool), s.cfg.wf = true → Startable s .none →
    ∃ t, exec (.blockErase l) s = .next t ∧ SeqFrame s t 0x30
      ∧ (readyAt s 0 = false → EndedBusy s t 0x30 l)
      ∧ (readyAt s 0 = true →
          WaitStatusEnds s t 0x30 l .operationTimeout .eraseFailed .none
            (sampleEvents s 0 ++ [.cmd 0x60] ++ addrEvents (rowGroup s.cfg s.regs.addr) ++ [.cmd 0xD0]) 1)

/-! ### Two-plane operations (R241 to R245) -/

/-- R241: TP_PROG_P1. -/
def Obligations.TpProgP1 : Prop :=
  ∀ (s : State) (l : Bool), s.cfg.wf = true → Startable s .none →
    s.regs.len.toNat ≤ s.cfg.bufWords →
    ∃ t, exec (.tpProgP1 l) s = .next t ∧ SeqFrame s t 0x40
      ∧ (readyAt s 0 = false → EndedBusy s t 0x40 l)
      ∧ (readyAt s 0 = true →
          EndedAs s t 0x40 l .success .plane1Prog
            (sampleEvents s 0 ++ programEvents s (paddr s.cfg s.regs.addr false) s.regs.len.toNat
              ++ [.cmd 0x11, .delay s.cfg.tDbsy]) 1 (lastSrAt s 0))

/-- R242: TP_PROG_P2. -/
def Obligations.TpProgP2 : Prop :=
  ∀ (s : State) (l : Bool), s.cfg.wf = true → Startable s .plane1Prog →
    s.regs.len.toNat ≤ s.cfg.bufWords →
    ∃ t, exec (.tpProgP2 l) s = .next t ∧ SeqFrame s t 0x41
      ∧ WaitStatusEnds s t 0x41 l .operationTimeout .programFailed .none
          (programEvents s (paddr s.cfg s.regs.addr true) s.regs.len.toNat ++ [.cmd 0x10]) 0

/-- R243: TP_CACHE_P2. -/
def Obligations.TpCacheP2 : Prop :=
  ∀ (s : State) (l : Bool), s.cfg.wf = true → Startable s .plane1Prog →
    s.regs.len.toNat ≤ s.cfg.bufWords →
    let es := programEvents s (paddr s.cfg s.regs.addr true) s.regs.len.toNat
    ∃ t, exec (.tpCacheP2 l) s = .next t ∧ SeqFrame s t 0x42
      ∧ (l = false →
          EndedAs s t 0x42 l .success .none (es ++ [.cmd 0x15, .delay s.cfg.tCbsy]) 0 s.st.lastSr)
      ∧ (l = true →
          WaitStatusEnds s t 0x42 l .programFailed .programFailed .none (es ++ [.cmd 0x10]) 0)

/-- R244: TP_ERASE_P1. -/
def Obligations.TpEraseP1 : Prop :=
  ∀ (s : State) (l : Bool), s.cfg.wf = true → Startable s .none →
    ∃ t, exec (.tpEraseP1 l) s = .next t ∧ SeqFrame s t 0x48
      ∧ (readyAt s 0 = false → EndedBusy s t 0x48 l)
      ∧ (readyAt s 0 = true →
          EndedAs s t 0x48 l .success .plane1Erase
            (sampleEvents s 0 ++ [.cmd 0x60]
              ++ addrEvents (rowGroup s.cfg (paddr s.cfg s.regs.addr false))
              ++ [.cmd 0xD1, .delay s.cfg.tDbsy]) 1 (lastSrAt s 0))

/-- R245: TP_ERASE_P2. -/
def Obligations.TpEraseP2 : Prop :=
  ∀ (s : State) (l : Bool), s.cfg.wf = true → Startable s .plane1Erase →
    ∃ t, exec (.tpEraseP2 l) s = .next t ∧ SeqFrame s t 0x49
      ∧ WaitStatusEnds s t 0x49 l .operationTimeout .eraseFailed .none
          ([.cmd 0x60] ++ addrEvents (rowGroup s.cfg (paddr s.cfg s.regs.addr true)) ++ [.cmd 0xD0]) 0

/-! ### Requests that end at the checks (R305 to R310) -/

/-- R305, R308, R310: an operation its session does not admit. CTRL and the latched request are written
(log 12). -/
def Obligations.SessionRefuses : Prop :=
  ∀ (s : State) (x : Session) (i : Instr), s.cfg.wf = true → Startable s x → admittedIn x i = false →
    ∃ t, exec i s = .next t
      ∧ Refused s t i.opcode i.lastFlag .invalidCommand x

/-- R103, R308: a request whose OP is illegal. CTRL and the latched request are written (log 12). -/
def Obligations.IllegalRequest : Prop :=
  ∀ (s : State) (x : Session) (w : BitVec 32) (r : List Input), s.cfg.wf = true →
    s.env.inputs = .access (.write 0x00 4 w) :: r → Startable (setInputs r s) x →
    decode w = .error (.illegalOp (ctrlWordOp w)) →
    ∃ t, step s = .next t
      ∧ Refused (setInputs r s) t (ctrlWordOp w) (ctrlWordL w) .invalidCommand x

/-- R306, R310: a LEN operation longer than the buffer. CTRL and the latched request are written (log 12). -/
def Obligations.LenRefused : Prop :=
  ∀ (s : State) (x : Session) (i : Instr), s.cfg.wf = true → Startable s x → admittedIn x i = true →
    lenOperation i = true → s.cfg.bufWords < s.regs.len.toNat →
    ∃ t, exec i s = .next t
      ∧ Refused s t i.opcode i.lastFlag .invalidData x

/-- R307, R310, R192: CACHE_READ_BEGIN at an address that is not page-aligned. CTRL and the latched request
are written (log 12). -/
def Obligations.AddrRefused : Prop :=
  ∀ (s : State) (l : Bool), s.cfg.wf = true → Startable s .none → col s.cfg s.regs.addr ≠ 0 →
    ∃ t, exec (.cacheReadBegin l) s = .next t
      ∧ Refused s t 0x12 l .invalidAddress .none

/-! ### Bulk operations (R261 to R279) -/

/-- R261 to R263, R276: a bulk operation with BULK_COUNT = 0 makes the identity capture and ends. That
bulk.mode, bulk.phase and the counters keep their values at the end is DEDUCED (log 16). -/
def Obligations.BulkEmptyRun : Prop :=
  ∀ (s : State) (i : Instr) (m : BulkMode), s.cfg.wf = true → Startable s .none →
    bulkModeOf i = some m → s.regs.bulkCount = 0 → readyAt s 0 = true → IdentityOk s 1 →
    ∃ t, exec i s = .next t ∧ RunFrame s t i ∧ RunEnded t .success
      ∧ Observed s t (readIdEvents s 0) (1 + s.cfg.idBytes) ∧ IdCaptured s t
      ∧ t.bulk = { runStarted s m with progress := 100, active := false }
      ∧ t.st.lastSr = lastSrAt s 0 ∧ t.bufA = s.bufA ∧ t.bufC = s.bufC

/-- R262, R309, R275: a capture that sees a busy device or another identity ends the whole run. -/
def Obligations.CaptureFails : Prop :=
  ∀ (s : State) (i : Instr) (m : BulkMode), s.cfg.wf = true → Startable s .none →
    bulkModeOf i = some m → readyAt s 0 = false ∨ ¬ IdentityOk s 1 →
    ∃ t, exec i s = .next t ∧ RunFrame s t i ∧ RunEnded t .readIdFailed ∧ t.st.idcap = false
      ∧ t.bulk.badCount = 0 ∧ t.bulk.badLog = [] ∧ t.bulk.idRetries = 0 ∧ t.bulk.streamReq = false
      ∧ t.ids.capLo = s.ids.capLo ∧ t.ids.capHi = s.ids.capHi ∧ t.st.lastSr = lastSrAt s 0
      ∧ (readyAt s 0 = false →
          Observed s t (sampleEvents s 0) 1 ∧ t.bulk.lastResult = .busy ∧ t.ids = s.ids)
      ∧ (readyAt s 0 = true →
          Observed s t (readIdEvents s 0) (1 + s.cfg.idBytes) ∧ t.bulk.lastResult = .success
          ∧ IdStored s 1 t.ids.idLo t.ids.idHi)
      ∧ t.bufA = s.bufA ∧ t.bufC = s.bufC

/-- R272, R278: BULK_WRITE with units to do comes, after the capture, to the Fill of its first unit. R267:
Execute of a write unit is a PAGE_PROGRAM of REC_WORDS words at the address of the unit. -/
def Obligations.BulkWriteFills : Prop :=
  (∀ (s : State) (l : Bool), s.cfg.wf = true → Startable s .none → s.regs.bulkCount ≠ 0 →
    readyAt s 0 = true → IdentityOk s 1 →
    ∃ t, exec (.bulkWrite l) s = .next t ∧ RunFrame s t (.bulkWrite l) ∧ RunHolds s t true .fillHold
      ∧ Observed s t (readIdEvents s 0) (1 + s.cfg.idBytes) ∧ IdCaptured s t
      ∧ t.bulk = { runStarted s .write with phase := .fill, streamReq := true, streamDir := true }
      ∧ t.bufA = s.bufA ∧ t.bufC = s.bufC)
  ∧ ∀ s : State, s.cfg.wf = true → s.seq.pc = .bulk .execute → s.bulk.mode = .write →
    s.st.session = .none →
    ∃ k t, drive k s = t ∧ t.bufA = s.bufA ∧ t.bufC = s.bufC ∧ t.bulk.phase = .execute
      ∧ IssuedWaitStatus s t .executed .programFailed
          (programEvents s (pageUnitAddr s.cfg s.bulk.unit) s.cfg.recWords ++ [.cmd 0x10])

/-- R264, R266, R267, R268, R273, R277: BULK_READ of a device that is ready and keeps its identity reads
its first unit into buffer A, with READ_VERIFY = 1 a second time into buffer C, and asks the host to take
it. Execute of any read unit is a PAGE_READ of REC_WORDS words at the address of the unit. -/
def Obligations.BulkReadDrains : Prop :=
  (∀ (s : State) (l : Bool), s.cfg.wf = true → Startable s .none → s.regs.bulkCount ≠ 0 →
    readyAt s 0 = true → IdentityOk s 1 →
    readyAt s (1 + s.cfg.idBytes) = true → IdentityOk s (2 + s.cfg.idBytes) →
    readyAt s (2 + 2 * s.cfg.idBytes) = true →
    let b := 2 + 2 * s.cfg.idBytes
    let n := s.cfg.recWords
    let v := b + 1 + n
    let setup := pageSetupEvents s.cfg (pageUnitAddr s.cfg s.regs.bulkStart)
    let es := readIdEvents s 0 ++ readIdEvents s (1 + s.cfg.idBytes) ++ sampleEvents s b ++ setup
      ++ readEvents s (b + 1) n
    ∃ t, exec (.bulkRead l) s = .next t
      ∧ ((s.cfg.readVerify = false ∨ (readyAt s v = true ∧ ∀ i < n, answer s (v + 1 + i) = answer s (b + 1 + i)))
          → RunFrame s t (.bulkRead l) ∧ RunHolds s t false .drainHold
            ∧ (∀ i < n, cellGet i t.bufA = some (answer s (b + 1 + i)))
            ∧ (∀ i, n ≤ i → cellGet i t.bufA = cellGet i s.bufA ∧ cellGet i t.bufC = cellGet i s.bufC)
            ∧ t.bulk = { runStarted s .read with phase := .drain, streamReq := true, streamDir := false })
      ∧ (s.cfg.readVerify = false →
          Observed s t es v ∧ t.st.lastSr = lastSrAt s b ∧ t.bufC = s.bufC)
      ∧ (s.cfg.readVerify = true → readyAt s v = true →
          (∀ i < n, answer s (v + 1 + i) = answer s (b + 1 + i)) →
          Observed s t (es ++ sampleEvents s v ++ setup ++ readEvents s (v + 1) n) (v + 1 + n)
          ∧ t.st.lastSr = lastSrAt s v ∧ ∀ i < n, cellGet i t.bufC = some (answer s (v + 1 + i))))
  ∧ ∀ s : State, s.cfg.wf = true → s.seq.pc = .bulk .execute → s.bulk.mode = .read →
    s.st.session = .none →
    let n := s.cfg.recWords
    ∃ k t, drive k s = t ∧ t.bufC = s.bufC ∧ t.bulk.phase = .execute
      ∧ (readyAt s 0 = false →
          Issued s t .executed .busy (sampleEvents s 0) 1 (lastSrAt s 0) ∧ t.bufA = s.bufA)
      ∧ (readyAt s 0 = true →
          Issued s t .executed .success
            (sampleEvents s 0 ++ pageSetupEvents s.cfg (pageUnitAddr s.cfg s.bulk.unit) ++ readEvents s 1 n)
            (1 + n) (lastSrAt s 0)
          ∧ (∀ i < n, cellGet i t.bufA = some (answer s (1 + i)))
          ∧ ∀ i, n ≤ i → cellGet i t.bufA = cellGet i s.bufA)

/-- R263 to R267, R271, R275, R279: BULK_ERASE of one block, of a device that is ready and keeps its
identity, whose erase passes at ready observation j. That bulk.mode, bulk.phase and the counters keep
their values at the end is DEDUCED (log 16). Execute of any erase unit is a BLOCK_ERASE at its address. -/
def Obligations.BulkEraseOne : Prop :=
  (∀ (s : State) (l : Bool) (j : Nat), s.cfg.wf = true → Startable s .none → s.regs.bulkCount = 1 →
    readyAt s 0 = true → IdentityOk s 1 →
    readyAt s (1 + s.cfg.idBytes) = true → IdentityOk s (2 + s.cfg.idBytes) →
    readyAt s (2 + 2 * s.cfg.idBytes) = true → ReadyAfter s (3 + 2 * s.cfg.idBytes) j →
    statusFailed (answerByte s (4 + 2 * s.cfg.idBytes + j)) = false →
    let b := 2 + 2 * s.cfg.idBytes
    ∃ t, exec (.bulkErase l) s = .next t ∧ RunFrame s t (.bulkErase l) ∧ RunEnded t .success
      ∧ Observed s t (readIdEvents s 0 ++ readIdEvents s (1 + s.cfg.idBytes) ++ sampleEvents s b
          ++ [.cmd 0x60] ++ addrEvents (rowGroup s.cfg (blockUnitAddr s.cfg s.regs.bulkStart))
          ++ [.cmd 0xD0] ++ pollEvents s (b + 1) (j + 1) ++ statusEvents s (b + 2 + j)) (b + 3 + j)
      ∧ t.bulk = { runStarted s .erase with
          unit := s.regs.bulkStart + 1, left := 0, unitsDone := 1, phase := .advance, progress := 100,
          active := false }
      ∧ IdStored s (2 + s.cfg.idBytes) t.ids.idLo t.ids.idHi ∧ t.st.idcap = true
      ∧ t.st.lastSr = answerByte s (b + 2 + j) ∧ t.bufA = s.bufA ∧ t.bufC = s.bufC)
  ∧ ∀ s : State, s.cfg.wf = true → s.seq.pc = .bulk .execute → s.bulk.mode = .erase →
    s.st.session = .none →
    ∃ k t, drive k s = t ∧ t.bufA = s.bufA ∧ t.bufC = s.bufC ∧ t.bulk.phase = .execute
      ∧ IssuedWaitStatus s t .executed .eraseFailed
          ([.cmd 0x60] ++ addrEvents (rowGroup s.cfg (blockUnitAddr s.cfg s.bulk.unit)) ++ [.cmd 0xD0])

/-- R264, R266, R274, R45: Validate issues READ_ID and judges it. Success with the captured identity goes
on to Execute; any other result, or an identity byte below ID_BYTES that differs from the captured one,
retries the same unit, or ends the run if the host asked. -/
def Obligations.IdMismatch : Prop :=
  (∀ s : State, s.cfg.wf = true → s.seq.pc = .bulk .validate → s.st.session = .none →
    ∃ k t, drive k s = t ∧ t.bufA = s.bufA ∧ t.bufC = s.bufC ∧ t.bulk.phase = .validate
      ∧ (readyAt s 0 = false → Issued s t .validated .busy (sampleEvents s 0) 1 (lastSrAt s 0))
      ∧ (readyAt s 0 = true →
          Issued { s with ids := t.ids } t .validated .success (readIdEvents s 0) (1 + s.cfg.idBytes)
            (lastSrAt s 0)
          ∧ IdStored s 1 t.ids.idLo t.ids.idHi ∧ t.ids.capLo = s.ids.capLo ∧ t.ids.capHi = s.ids.capHi))
  ∧ ∀ s : State, s.seq.pc = .bulk .validated →
    let stored := idByteOf s.ids.idLo s.ids.idHi
    let captured := idByteOf s.ids.capLo s.ids.capHi
    let t := tick s
    (s.bulk.lastResult = .success ∧ (∀ i < s.cfg.idBytes, stored i = captured i) →
        t = setPc (.bulk .execute) s)
    ∧ (s.bulk.lastResult ≠ .success ∨ (∃ i < s.cfg.idBytes, stored i ≠ captured i) →
        t.bulk.idRetries.toNat = min (s.bulk.idRetries.toNat + 1) (2 ^ 32 - 1)
        ∧ (s.bulk.abortReq = false →
            Moved s t .validate ∧ t.bulk = { s.bulk with idRetries := t.bulk.idRetries })
        ∧ (s.bulk.abortReq = true →
            Moved s t .finish ∧ t.bulk = { s.bulk with idRetries := t.bulk.idRetries, aborted := true }))

/-- R263, R267, R268, R270, R44, R273: an attempt fails when its operation or its verify read returned
anything but Success; it is retried until RETRY_MAX is exceeded, and then the unit is logged and is over,
a read unit with its Drain requested. -/
def Obligations.FailedAttempt : Prop :=
  ∀ s : State, s.cfg.wf = true → s.seq.pc = .bulk .executed ∨ s.seq.pc = .bulk .verified →
    s.bulk.lastResult ≠ .success → s.bulk.fails.toNat ≤ s.cfg.retryMax →
    AttemptFails s (tick s) s.bulk.lastResult

/-- R266 to R269, R273: after the operation of an attempt returned Success, the unit is over if no verify
applies, a read unit with its Drain requested; if one does, PAGE_READ is issued on the unit's page, into
buffer C; and after that read a word that differs records InvalidData and fails the attempt. -/
def Obligations.VerifyCompares : Prop :=
  (∀ s : State, s.seq.pc = .bulk .executed → s.bulk.lastResult = .success → s.bulk.mode ≠ .none →
    verifyApplies s = false →
    Moved s (tick s) (afterUnit s) ∧ (tick s).bulk = unitOverBulk s.bulk)
  ∧ (∀ s : State, s.cfg.wf = true → s.seq.pc = .bulk .executed → s.bulk.lastResult = .success →
    s.st.session = .none → verifyApplies s = true →
    let n := s.cfg.recWords
    ∃ k t, drive k s = t ∧ t.bufA = s.bufA ∧ (s.bulk.mode = .read → t.bulk.phase = .verify)
      ∧ (readyAt s 0 = false →
          Issued s t .verified .busy (sampleEvents s 0) 1 (lastSrAt s 0) ∧ t.bufC = s.bufC)
      ∧ (readyAt s 0 = true →
          Issued s t .verified .success
            (sampleEvents s 0 ++ pageSetupEvents s.cfg (pageUnitAddr s.cfg s.bulk.unit) ++ readEvents s 1 n)
            (1 + n) (lastSrAt s 0)
          ∧ (∀ i < n, cellGet i t.bufC = some (answer s (1 + i)))
          ∧ ∀ i, n ≤ i → cellGet i t.bufC = cellGet i s.bufC))
  ∧ ∀ s : State, s.cfg.wf = true → s.seq.pc = .bulk .verified → s.bulk.lastResult = .success →
    s.bulk.fails.toNat ≤ s.cfg.retryMax →
    ((∃ i < s.cfg.recWords, memRead s i ≠ cRead s i) → AttemptFails s (tick s) .invalidData)
    ∧ ((∀ i < s.cfg.recWords, memRead s i = cRead s i) →
        Moved s (tick s) (afterUnit s) ∧ (tick s).bulk = unitOverBulk s.bulk)

/-- R271, R276: Advance. -/
def Obligations.AdvanceUnit : Prop :=
  ∀ s : State, s.seq.pc = .bulk .advance → CountWf s →
    let t := tick s
    t.bulk = { s.bulk with
      phase := .advance, unitsDone := s.bulk.unitsDone + 1, left := s.bulk.left - 1,
      unit := s.bulk.unit + 1, progress := t.bulk.progress }
    ∧ t.bulk.progress.toNat = (s.bulk.unitsDone + 1).toNat * 100 / s.bulk.count.toNat
    ∧ t.seq.pc = .bulk .loopHead

/-- R263, R272 to R275: the head of the unit loop; the holds of Fill and Drain, lifted only by the host's
STREAM write, and what follows; and the end of a run, aborted or not. That no operation is open at finish
is part of Inv. -/
def Obligations.StreamHolds : Prop :=
  (∀ s : State, s.seq.pc = .bulk .loopHead →
    (s.bulk.left = 0 → tick s = setPc (.bulk .finish) s)
    ∧ (s.bulk.left ≠ 0 → s.bulk.abortReq = true →
        tick s = setPc (.bulk .finish) { s with bulk := { s.bulk with aborted := true } })
    ∧ (s.bulk.left ≠ 0 → s.bulk.abortReq = false → s.bulk.mode = .write →
        tick s = setPc (.bulk .fillHold)
          { s with bulk := { s.bulk with phase := .fill, streamDir := true, streamReq := true } })
    ∧ (s.bulk.left ≠ 0 → s.bulk.abortReq = false → s.bulk.mode = .read ∨ s.bulk.mode = .erase →
        tick s = setPc (.bulk .validate) { s with bulk := { s.bulk with fails := 0 } }))
  ∧ (∀ s : State, s.seq.pc = .bulk .fillHold ∨ s.seq.pc = .bulk .drainHold →
    (s.bulk.streamReq = true → s.bulk.abortReq = false → ∀ n, drive n s = s)
    ∧ (s.bulk.streamReq = false → s.seq.pc = .bulk .fillHold →
        tick s = setPc (.bulk .validate) { s with bulk := { s.bulk with fails := 0 } })
    ∧ (s.bulk.streamReq = false → s.seq.pc = .bulk .drainHold → tick s = setPc (.bulk .advance) s)
    ∧ (s.bulk.streamReq = true → s.bulk.abortReq = true →
        tick s = setPc (.bulk .finish)
          { s with bulk := { s.bulk with streamReq := false, aborted := true } }))
  ∧ ∀ s : State, s.seq.pc = .bulk .finish → s.seq.resume = none →
    tick s = { s with
      bulk := { s.bulk with active := false }
      st := { s.st with result := .success, done := true, busy := false }
      seq := { s.seq with pc := .idle }
      pins := { s.pins with cle := false, ale := false, weN := true, reN := true, ceN := true } }

/-! ### Invariants -/

/-- The invariant holds after reset, in every configuration. -/
def Obligations.InvReset : Prop := ∀ c : Config, Inv (resetOf c)

/-- R44, R72, R73, R114, R148, R155, R270, R271, R276, R300, R313: every step keeps the invariant. That CE# is
1 after the start of a bulk run, in PinsWf, is the model's reading (DEDUCED, log 11). -/
def Obligations.InvStep : Prop :=
  ∀ s t : State, Inv s → step s = .next t → Inv t

/-- R305: only the operation that ends a session returns it to NONE. -/
def Obligations.SessionClosers : Prop :=
  ∀ (s t : State) (i : Instr), Inv s → exec i s = .next t → s.st.session ≠ .none →
    t.st.session = .none → closesSession i = true

/-- R11, R91, R301: however long the block runs, its configuration and the request registers but FDATA
stay as they are, and events are only appended to the trace. -/
def Obligations.RunKeeps : Prop :=
  ∀ (n : Nat) (s : State), let t := drive n s
    t.cfg = s.cfg ∧ t.regs = { s.regs with fdata := t.regs.fdata }
    ∧ (∃ es, t.env.trace = s.env.trace ++ es)
    ∧ t.env.inputs = s.env.inputs ∧ t.env.reads = s.env.reads

end Statements
end

