-- ==== Sys2Proof/Laws/State.lean ====
section
/-! SUPPORT. One lemma per field per named update of the state. -/

namespace Sys2Proof.Machine

/-! ### setPc -/

@[simp] theorem setPc_cfg (p : Pc) (s : State) : (setPc p s).cfg = s.cfg := rfl
@[simp] theorem setPc_regs (p : Pc) (s : State) : (setPc p s).regs = s.regs := rfl
@[simp] theorem setPc_st (p : Pc) (s : State) : (setPc p s).st = s.st := rfl
@[simp] theorem setPc_ids (p : Pc) (s : State) : (setPc p s).ids = s.ids := rfl
@[simp] theorem setPc_bulk (p : Pc) (s : State) : (setPc p s).bulk = s.bulk := rfl
@[simp] theorem setPc_pins (p : Pc) (s : State) : (setPc p s).pins = s.pins := rfl
@[simp] theorem setPc_bufA (p : Pc) (s : State) : (setPc p s).bufA = s.bufA := rfl
@[simp] theorem setPc_bufC (p : Pc) (s : State) : (setPc p s).bufC = s.bufC := rfl
@[simp] theorem setPc_env (p : Pc) (s : State) : (setPc p s).env = s.env := rfl

/-! ### setSession -/

@[simp] theorem setSession_cfg (x : Session) (s : State) : (setSession x s).cfg = s.cfg := rfl
@[simp] theorem setSession_regs (x : Session) (s : State) : (setSession x s).regs = s.regs := rfl
@[simp] theorem setSession_ids (x : Session) (s : State) : (setSession x s).ids = s.ids := rfl
@[simp] theorem setSession_bulk (x : Session) (s : State) : (setSession x s).bulk = s.bulk := rfl
@[simp] theorem setSession_seq (x : Session) (s : State) : (setSession x s).seq = s.seq := rfl
@[simp] theorem setSession_pins (x : Session) (s : State) : (setSession x s).pins = s.pins := rfl
@[simp] theorem setSession_bufA (x : Session) (s : State) : (setSession x s).bufA = s.bufA := rfl
@[simp] theorem setSession_bufC (x : Session) (s : State) : (setSession x s).bufC = s.bufC := rfl
@[simp] theorem setSession_env (x : Session) (s : State) : (setSession x s).env = s.env := rfl

/-! ### emit -/

@[simp] theorem emit_cfg (e : Event) (s : State) : (emit e s).cfg = s.cfg := rfl
@[simp] theorem emit_regs (e : Event) (s : State) : (emit e s).regs = s.regs := rfl
@[simp] theorem emit_st (e : Event) (s : State) : (emit e s).st = s.st := rfl
@[simp] theorem emit_ids (e : Event) (s : State) : (emit e s).ids = s.ids := rfl
@[simp] theorem emit_bulk (e : Event) (s : State) : (emit e s).bulk = s.bulk := rfl
@[simp] theorem emit_seq (e : Event) (s : State) : (emit e s).seq = s.seq := rfl
@[simp] theorem emit_pins (e : Event) (s : State) : (emit e s).pins = s.pins := rfl
@[simp] theorem emit_bufA (e : Event) (s : State) : (emit e s).bufA = s.bufA := rfl
@[simp] theorem emit_bufC (e : Event) (s : State) : (emit e s).bufC = s.bufC := rfl

/-! ### emitAll -/

@[simp] theorem emitAll_cfg (es : List Event) (s : State) : (emitAll es s).cfg = s.cfg := rfl
@[simp] theorem emitAll_regs (es : List Event) (s : State) : (emitAll es s).regs = s.regs := rfl
@[simp] theorem emitAll_st (es : List Event) (s : State) : (emitAll es s).st = s.st := rfl
@[simp] theorem emitAll_ids (es : List Event) (s : State) : (emitAll es s).ids = s.ids := rfl
@[simp] theorem emitAll_bulk (es : List Event) (s : State) : (emitAll es s).bulk = s.bulk := rfl
@[simp] theorem emitAll_seq (es : List Event) (s : State) : (emitAll es s).seq = s.seq := rfl
@[simp] theorem emitAll_pins (es : List Event) (s : State) : (emitAll es s).pins = s.pins := rfl
@[simp] theorem emitAll_bufA (es : List Event) (s : State) : (emitAll es s).bufA = s.bufA := rfl
@[simp] theorem emitAll_bufC (es : List Event) (s : State) : (emitAll es s).bufC = s.bufC := rfl

/-! ### setDir -/

@[simp] theorem setDir_cfg (d : Dir) (s : State) : (setDir d s).cfg = s.cfg := rfl
@[simp] theorem setDir_regs (d : Dir) (s : State) : (setDir d s).regs = s.regs := rfl
@[simp] theorem setDir_st (d : Dir) (s : State) : (setDir d s).st = s.st := rfl
@[simp] theorem setDir_ids (d : Dir) (s : State) : (setDir d s).ids = s.ids := rfl
@[simp] theorem setDir_bulk (d : Dir) (s : State) : (setDir d s).bulk = s.bulk := rfl
@[simp] theorem setDir_seq (d : Dir) (s : State) : (setDir d s).seq = s.seq := rfl
@[simp] theorem setDir_bufA (d : Dir) (s : State) : (setDir d s).bufA = s.bufA := rfl
@[simp] theorem setDir_bufC (d : Dir) (s : State) : (setDir d s).bufC = s.bufC := rfl

/-! ### memWrite -/

@[simp] theorem memWrite_cfg (i : Nat) (v : Word) (s : State) : (memWrite i v s).cfg = s.cfg := rfl
@[simp] theorem memWrite_regs (i : Nat) (v : Word) (s : State) : (memWrite i v s).regs = s.regs := rfl
@[simp] theorem memWrite_st (i : Nat) (v : Word) (s : State) : (memWrite i v s).st = s.st := rfl
@[simp] theorem memWrite_ids (i : Nat) (v : Word) (s : State) : (memWrite i v s).ids = s.ids := rfl
@[simp] theorem memWrite_bulk (i : Nat) (v : Word) (s : State) : (memWrite i v s).bulk = s.bulk := rfl
@[simp] theorem memWrite_seq (i : Nat) (v : Word) (s : State) : (memWrite i v s).seq = s.seq := rfl
@[simp] theorem memWrite_pins (i : Nat) (v : Word) (s : State) : (memWrite i v s).pins = s.pins := rfl
@[simp] theorem memWrite_bufC (i : Nat) (v : Word) (s : State) : (memWrite i v s).bufC = s.bufC := rfl
@[simp] theorem memWrite_env (i : Nat) (v : Word) (s : State) : (memWrite i v s).env = s.env := rfl

/-! ### cWrite -/

@[simp] theorem cWrite_cfg (i : Nat) (v : Word) (s : State) : (cWrite i v s).cfg = s.cfg := rfl
@[simp] theorem cWrite_regs (i : Nat) (v : Word) (s : State) : (cWrite i v s).regs = s.regs := rfl
@[simp] theorem cWrite_st (i : Nat) (v : Word) (s : State) : (cWrite i v s).st = s.st := rfl
@[simp] theorem cWrite_ids (i : Nat) (v : Word) (s : State) : (cWrite i v s).ids = s.ids := rfl
@[simp] theorem cWrite_bulk (i : Nat) (v : Word) (s : State) : (cWrite i v s).bulk = s.bulk := rfl
@[simp] theorem cWrite_seq (i : Nat) (v : Word) (s : State) : (cWrite i v s).seq = s.seq := rfl
@[simp] theorem cWrite_pins (i : Nat) (v : Word) (s : State) : (cWrite i v s).pins = s.pins := rfl
@[simp] theorem cWrite_bufA (i : Nat) (v : Word) (s : State) : (cWrite i v s).bufA = s.bufA := rfl
@[simp] theorem cWrite_env (i : Nat) (v : Word) (s : State) : (cWrite i v s).env = s.env := rfl

/-! ### touch -/

@[simp] theorem touch_cfg (s : State) : (touch s).cfg = s.cfg := rfl
@[simp] theorem touch_regs (s : State) : (touch s).regs = s.regs := rfl
@[simp] theorem touch_st (s : State) : (touch s).st = s.st := rfl
@[simp] theorem touch_ids (s : State) : (touch s).ids = s.ids := rfl
@[simp] theorem touch_bulk (s : State) : (touch s).bulk = s.bulk := rfl
@[simp] theorem touch_seq (s : State) : (touch s).seq = s.seq := rfl
@[simp] theorem touch_bufA (s : State) : (touch s).bufA = s.bufA := rfl
@[simp] theorem touch_bufC (s : State) : (touch s).bufC = s.bufC := rfl
@[simp] theorem touch_env (s : State) : (touch s).env = s.env := rfl

/-! ### takeAnswer -/

@[simp] theorem takeAnswer_cfg (s : State) : (takeAnswer s).cfg = s.cfg := rfl
@[simp] theorem takeAnswer_regs (s : State) : (takeAnswer s).regs = s.regs := rfl
@[simp] theorem takeAnswer_st (s : State) : (takeAnswer s).st = s.st := rfl
@[simp] theorem takeAnswer_ids (s : State) : (takeAnswer s).ids = s.ids := rfl
@[simp] theorem takeAnswer_bulk (s : State) : (takeAnswer s).bulk = s.bulk := rfl
@[simp] theorem takeAnswer_seq (s : State) : (takeAnswer s).seq = s.seq := rfl
@[simp] theorem takeAnswer_pins (s : State) : (takeAnswer s).pins = s.pins := rfl
@[simp] theorem takeAnswer_bufA (s : State) : (takeAnswer s).bufA = s.bufA := rfl
@[simp] theorem takeAnswer_bufC (s : State) : (takeAnswer s).bufC = s.bufC := rfl

/-! ### takeFree -/

@[simp] theorem takeFree_cfg (s : State) : (takeFree s).cfg = s.cfg := rfl
@[simp] theorem takeFree_regs (s : State) : (takeFree s).regs = s.regs := rfl
@[simp] theorem takeFree_st (s : State) : (takeFree s).st = s.st := rfl
@[simp] theorem takeFree_ids (s : State) : (takeFree s).ids = s.ids := rfl
@[simp] theorem takeFree_bulk (s : State) : (takeFree s).bulk = s.bulk := rfl
@[simp] theorem takeFree_seq (s : State) : (takeFree s).seq = s.seq := rfl
@[simp] theorem takeFree_pins (s : State) : (takeFree s).pins = s.pins := rfl
@[simp] theorem takeFree_bufA (s : State) : (takeFree s).bufA = s.bufA := rfl
@[simp] theorem takeFree_bufC (s : State) : (takeFree s).bufC = s.bufC := rfl

/-! ### setInputs -/

@[simp] theorem setInputs_cfg (r : List Input) (s : State) : (setInputs r s).cfg = s.cfg := rfl
@[simp] theorem setInputs_regs (r : List Input) (s : State) : (setInputs r s).regs = s.regs := rfl
@[simp] theorem setInputs_st (r : List Input) (s : State) : (setInputs r s).st = s.st := rfl
@[simp] theorem setInputs_ids (r : List Input) (s : State) : (setInputs r s).ids = s.ids := rfl
@[simp] theorem setInputs_bulk (r : List Input) (s : State) : (setInputs r s).bulk = s.bulk := rfl
@[simp] theorem setInputs_seq (r : List Input) (s : State) : (setInputs r s).seq = s.seq := rfl
@[simp] theorem setInputs_pins (r : List Input) (s : State) : (setInputs r s).pins = s.pins := rfl
@[simp] theorem setInputs_bufA (r : List Input) (s : State) : (setInputs r s).bufA = s.bufA := rfl
@[simp] theorem setInputs_bufC (r : List Input) (s : State) : (setInputs r s).bufC = s.bufC := rfl

/-! ### goTo -/

@[simp] theorem goTo_cfg (p : RetryPt) (s : State) : (goTo p s).cfg = s.cfg := rfl
@[simp] theorem goTo_regs (p : RetryPt) (s : State) : (goTo p s).regs = s.regs := rfl
@[simp] theorem goTo_st (p : RetryPt) (s : State) : (goTo p s).st = s.st := rfl
@[simp] theorem goTo_ids (p : RetryPt) (s : State) : (goTo p s).ids = s.ids := rfl
@[simp] theorem goTo_bulk (p : RetryPt) (s : State) : (goTo p s).bulk = s.bulk := rfl
@[simp] theorem goTo_pins (p : RetryPt) (s : State) : (goTo p s).pins = s.pins := rfl
@[simp] theorem goTo_bufA (p : RetryPt) (s : State) : (goTo p s).bufA = s.bufA := rfl
@[simp] theorem goTo_bufC (p : RetryPt) (s : State) : (goTo p s).bufC = s.bufC := rfl
@[simp] theorem goTo_env (p : RetryPt) (s : State) : (goTo p s).env = s.env := rfl

/-! ### setPhase -/

@[simp] theorem setPhase_cfg (x : Phase) (s : State) : (setPhase x s).cfg = s.cfg := rfl
@[simp] theorem setPhase_regs (x : Phase) (s : State) : (setPhase x s).regs = s.regs := rfl
@[simp] theorem setPhase_st (x : Phase) (s : State) : (setPhase x s).st = s.st := rfl
@[simp] theorem setPhase_ids (x : Phase) (s : State) : (setPhase x s).ids = s.ids := rfl
@[simp] theorem setPhase_seq (x : Phase) (s : State) : (setPhase x s).seq = s.seq := rfl
@[simp] theorem setPhase_pins (x : Phase) (s : State) : (setPhase x s).pins = s.pins := rfl
@[simp] theorem setPhase_bufA (x : Phase) (s : State) : (setPhase x s).bufA = s.bufA := rfl
@[simp] theorem setPhase_bufC (x : Phase) (s : State) : (setPhase x s).bufC = s.bufC := rfl
@[simp] theorem setPhase_env (x : Phase) (s : State) : (setPhase x s).env = s.env := rfl

/-! ### refuseAccess -/

@[simp] theorem refuseAccess_cfg (s : State) : (refuseAccess s).cfg = s.cfg := rfl
@[simp] theorem refuseAccess_regs (s : State) : (refuseAccess s).regs = s.regs := rfl
@[simp] theorem refuseAccess_ids (s : State) : (refuseAccess s).ids = s.ids := rfl
@[simp] theorem refuseAccess_bulk (s : State) : (refuseAccess s).bulk = s.bulk := rfl
@[simp] theorem refuseAccess_seq (s : State) : (refuseAccess s).seq = s.seq := rfl
@[simp] theorem refuseAccess_pins (s : State) : (refuseAccess s).pins = s.pins := rfl
@[simp] theorem refuseAccess_bufA (s : State) : (refuseAccess s).bufA = s.bufA := rfl
@[simp] theorem refuseAccess_bufC (s : State) : (refuseAccess s).bufC = s.bufC := rfl
@[simp] theorem refuseAccess_env (s : State) : (refuseAccess s).env = s.env := rfl

/-! ### bumpPtr -/

@[simp] theorem bumpPtr_cfg (s : State) : (bumpPtr s).cfg = s.cfg := rfl
@[simp] theorem bumpPtr_st (s : State) : (bumpPtr s).st = s.st := rfl
@[simp] theorem bumpPtr_ids (s : State) : (bumpPtr s).ids = s.ids := rfl
@[simp] theorem bumpPtr_bulk (s : State) : (bumpPtr s).bulk = s.bulk := rfl
@[simp] theorem bumpPtr_seq (s : State) : (bumpPtr s).seq = s.seq := rfl
@[simp] theorem bumpPtr_pins (s : State) : (bumpPtr s).pins = s.pins := rfl
@[simp] theorem bumpPtr_bufA (s : State) : (bumpPtr s).bufA = s.bufA := rfl
@[simp] theorem bumpPtr_bufC (s : State) : (bumpPtr s).bufC = s.bufC := rfl
@[simp] theorem bumpPtr_env (s : State) : (bumpPtr s).env = s.env := rfl

/-! ### Inside the changed group -/

@[simp] theorem setPc_seq_pc (p : Pc) (s : State) : (setPc p s).seq.pc = p := rfl
@[simp] theorem setPc_seq_resume (p : Pc) (s : State) : (setPc p s).seq.resume = s.seq.resume := rfl
@[simp] theorem setPc_seq_cur (p : Pc) (s : State) : (setPc p s).seq.cur = s.seq.cur := rfl
@[simp] theorem setPc_seq_wcnt (p : Pc) (s : State) : (setPc p s).seq.wcnt = s.seq.wcnt := rfl
@[simp] theorem setPc_seq_sr (p : Pc) (s : State) : (setPc p s).seq.sr = s.seq.sr := rfl
@[simp] theorem setPc_seq_tmrCnt (p : Pc) (s : State) : (setPc p s).seq.tmrCnt = s.seq.tmrCnt := rfl
@[simp] theorem setPc_seq_tmrThr (p : Pc) (s : State) : (setPc p s).seq.tmrThr = s.seq.tmrThr := rfl
@[simp] theorem setPc_seq_obs (p : Pc) (s : State) : (setPc p s).seq.obs = s.seq.obs := rfl
@[simp] theorem setPc_seq_tmp (p : Pc) (s : State) : (setPc p s).seq.tmp = s.seq.tmp := rfl
@[simp] theorem goTo_seq_pc (p : RetryPt) (s : State) : (goTo p s).seq.pc = .bulk p := rfl
@[simp] theorem goTo_seq_resume (p : RetryPt) (s : State) : (goTo p s).seq.resume = s.seq.resume := rfl
@[simp] theorem goTo_seq_cur (p : RetryPt) (s : State) : (goTo p s).seq.cur = s.seq.cur := rfl
@[simp] theorem goTo_seq_wcnt (p : RetryPt) (s : State) : (goTo p s).seq.wcnt = s.seq.wcnt := rfl
@[simp] theorem goTo_seq_sr (p : RetryPt) (s : State) : (goTo p s).seq.sr = s.seq.sr := rfl
@[simp] theorem goTo_seq_tmrCnt (p : RetryPt) (s : State) : (goTo p s).seq.tmrCnt = s.seq.tmrCnt := rfl
@[simp] theorem goTo_seq_tmrThr (p : RetryPt) (s : State) : (goTo p s).seq.tmrThr = s.seq.tmrThr := rfl
@[simp] theorem goTo_seq_obs (p : RetryPt) (s : State) : (goTo p s).seq.obs = s.seq.obs := rfl
@[simp] theorem goTo_seq_tmp (p : RetryPt) (s : State) : (goTo p s).seq.tmp = s.seq.tmp := rfl
@[simp] theorem emit_env_inputs (e : Event) (s : State) : (emit e s).env.inputs = s.env.inputs := rfl
@[simp] theorem emit_env_answers (e : Event) (s : State) : (emit e s).env.answers = s.env.answers := rfl
@[simp] theorem emit_env_draws (e : Event) (s : State) : (emit e s).env.draws = s.env.draws := rfl
@[simp] theorem emit_env_frees (e : Event) (s : State) : (emit e s).env.frees = s.env.frees := rfl
@[simp] theorem emit_env_trace (e : Event) (s : State) : (emit e s).env.trace = s.env.trace ++ [e] := rfl
@[simp] theorem emit_env_reads (e : Event) (s : State) : (emit e s).env.reads = s.env.reads := rfl
@[simp] theorem emitAll_env_inputs (es : List Event) (s : State) : (emitAll es s).env.inputs = s.env.inputs := rfl
@[simp] theorem emitAll_env_answers (es : List Event) (s : State) : (emitAll es s).env.answers = s.env.answers := rfl
@[simp] theorem emitAll_env_draws (es : List Event) (s : State) : (emitAll es s).env.draws = s.env.draws := rfl
@[simp] theorem emitAll_env_frees (es : List Event) (s : State) : (emitAll es s).env.frees = s.env.frees := rfl
@[simp] theorem emitAll_env_trace (es : List Event) (s : State) : (emitAll es s).env.trace = s.env.trace ++ es := rfl
@[simp] theorem emitAll_env_reads (es : List Event) (s : State) : (emitAll es s).env.reads = s.env.reads := rfl
@[simp] theorem setDir_pins_dir (d : Dir) (s : State) : (setDir d s).pins.dir = d := rfl
@[simp] theorem setDir_pins_cle (d : Dir) (s : State) : (setDir d s).pins.cle = s.pins.cle := rfl
@[simp] theorem setDir_pins_ale (d : Dir) (s : State) : (setDir d s).pins.ale = s.pins.ale := rfl
@[simp] theorem setDir_pins_weN (d : Dir) (s : State) : (setDir d s).pins.weN = s.pins.weN := rfl
@[simp] theorem setDir_pins_reN (d : Dir) (s : State) : (setDir d s).pins.reN = s.pins.reN := rfl
@[simp] theorem setDir_pins_ceN (d : Dir) (s : State) : (setDir d s).pins.ceN = false := rfl
@[simp] theorem setDir_pins_ioOut (d : Dir) (s : State) : (setDir d s).pins.ioOut = s.pins.ioOut := rfl
@[simp] theorem setDir_env_inputs (d : Dir) (s : State) : (setDir d s).env.inputs = s.env.inputs := rfl
@[simp] theorem setDir_env_answers (d : Dir) (s : State) : (setDir d s).env.answers = s.env.answers := rfl
@[simp] theorem setDir_env_draws (d : Dir) (s : State) : (setDir d s).env.draws = s.env.draws := rfl
@[simp] theorem setDir_env_frees (d : Dir) (s : State) : (setDir d s).env.frees = s.env.frees := rfl
@[simp] theorem setDir_env_trace (d : Dir) (s : State) : (setDir d s).env.trace = s.env.trace ++ (if s.pins.dir = d then [] else [.dir d]) := rfl
@[simp] theorem setDir_env_reads (d : Dir) (s : State) : (setDir d s).env.reads = s.env.reads := rfl
@[simp] theorem takeAnswer_env_inputs (s : State) : (takeAnswer s).env.inputs = s.env.inputs := rfl
@[simp] theorem takeAnswer_env_answers (s : State) : (takeAnswer s).env.answers = s.env.answers.tail := rfl
@[simp] theorem takeAnswer_env_draws (s : State) : (takeAnswer s).env.draws = s.env.draws + 1 := rfl
@[simp] theorem takeAnswer_env_frees (s : State) : (takeAnswer s).env.frees = s.env.frees := rfl
@[simp] theorem takeAnswer_env_trace (s : State) : (takeAnswer s).env.trace = s.env.trace := rfl
@[simp] theorem takeAnswer_env_reads (s : State) : (takeAnswer s).env.reads = s.env.reads := rfl
@[simp] theorem takeFree_env_inputs (s : State) : (takeFree s).env.inputs = s.env.inputs := rfl
@[simp] theorem takeFree_env_answers (s : State) : (takeFree s).env.answers = s.env.answers := rfl
@[simp] theorem takeFree_env_draws (s : State) : (takeFree s).env.draws = s.env.draws := rfl
@[simp] theorem takeFree_env_frees (s : State) : (takeFree s).env.frees = s.env.frees + 1 := rfl
@[simp] theorem takeFree_env_trace (s : State) : (takeFree s).env.trace = s.env.trace := rfl
@[simp] theorem takeFree_env_reads (s : State) : (takeFree s).env.reads = s.env.reads := rfl
@[simp] theorem setInputs_env_inputs (r : List Input) (s : State) : (setInputs r s).env.inputs = r := rfl
@[simp] theorem setInputs_env_answers (r : List Input) (s : State) : (setInputs r s).env.answers = s.env.answers := rfl
@[simp] theorem setInputs_env_draws (r : List Input) (s : State) : (setInputs r s).env.draws = s.env.draws := rfl
@[simp] theorem setInputs_env_frees (r : List Input) (s : State) : (setInputs r s).env.frees = s.env.frees := rfl
@[simp] theorem setInputs_env_trace (r : List Input) (s : State) : (setInputs r s).env.trace = s.env.trace := rfl
@[simp] theorem setInputs_env_reads (r : List Input) (s : State) : (setInputs r s).env.reads = s.env.reads := rfl
@[simp] theorem touch_pins_dir (s : State) : (touch s).pins.dir = s.pins.dir := rfl
@[simp] theorem touch_pins_cle (s : State) : (touch s).pins.cle = s.pins.cle := rfl
@[simp] theorem touch_pins_ale (s : State) : (touch s).pins.ale = s.pins.ale := rfl
@[simp] theorem touch_pins_weN (s : State) : (touch s).pins.weN = s.pins.weN := rfl
@[simp] theorem touch_pins_reN (s : State) : (touch s).pins.reN = s.pins.reN := rfl
@[simp] theorem touch_pins_ceN (s : State) : (touch s).pins.ceN = false := rfl
@[simp] theorem touch_pins_ioOut (s : State) : (touch s).pins.ioOut = s.pins.ioOut := rfl
@[simp] theorem setSession_st_busy (x : Session) (s : State) : (setSession x s).st.busy = s.st.busy := rfl
@[simp] theorem setSession_st_done (x : Session) (s : State) : (setSession x s).st.done = s.st.done := rfl
@[simp] theorem setSession_st_ovr (x : Session) (s : State) : (setSession x s).st.ovr = s.st.ovr := rfl
@[simp] theorem setSession_st_result (x : Session) (s : State) : (setSession x s).st.result = s.st.result := rfl
@[simp] theorem setSession_st_lastSr (x : Session) (s : State) : (setSession x s).st.lastSr = s.st.lastSr := rfl
@[simp] theorem setSession_st_session (x : Session) (s : State) : (setSession x s).st.session = x := rfl
@[simp] theorem setSession_st_idcap (x : Session) (s : State) : (setSession x s).st.idcap = s.st.idcap := rfl
@[simp] theorem refuseAccess_st_busy (s : State) : (refuseAccess s).st.busy = s.st.busy := rfl
@[simp] theorem refuseAccess_st_done (s : State) : (refuseAccess s).st.done = s.st.done := rfl
@[simp] theorem refuseAccess_st_ovr (s : State) : (refuseAccess s).st.ovr = true := rfl
@[simp] theorem refuseAccess_st_result (s : State) : (refuseAccess s).st.result = s.st.result := rfl
@[simp] theorem refuseAccess_st_lastSr (s : State) : (refuseAccess s).st.lastSr = s.st.lastSr := rfl
@[simp] theorem refuseAccess_st_session (s : State) : (refuseAccess s).st.session = s.st.session := rfl
@[simp] theorem refuseAccess_st_idcap (s : State) : (refuseAccess s).st.idcap = s.st.idcap := rfl

/-! ### Cycles -/

@[simp] theorem cmdCycle_cfg (c : Byte) (s : State) : (cmdCycle c s).cfg = s.cfg := rfl
@[simp] theorem cmdCycle_regs (c : Byte) (s : State) : (cmdCycle c s).regs = s.regs := rfl
@[simp] theorem cmdCycle_st (c : Byte) (s : State) : (cmdCycle c s).st = s.st := rfl
@[simp] theorem cmdCycle_ids (c : Byte) (s : State) : (cmdCycle c s).ids = s.ids := rfl
@[simp] theorem cmdCycle_bulk (c : Byte) (s : State) : (cmdCycle c s).bulk = s.bulk := rfl
@[simp] theorem cmdCycle_seq (c : Byte) (s : State) : (cmdCycle c s).seq = s.seq := rfl
@[simp] theorem cmdCycle_bufA (c : Byte) (s : State) : (cmdCycle c s).bufA = s.bufA := rfl
@[simp] theorem cmdCycle_bufC (c : Byte) (s : State) : (cmdCycle c s).bufC = s.bufC := rfl
@[simp] theorem cmdCycle_env_inputs (c : Byte) (s : State) : (cmdCycle c s).env.inputs = s.env.inputs := rfl
@[simp] theorem cmdCycle_env_answers (c : Byte) (s : State) : (cmdCycle c s).env.answers = s.env.answers := rfl
@[simp] theorem cmdCycle_env_draws (c : Byte) (s : State) : (cmdCycle c s).env.draws = s.env.draws := rfl
@[simp] theorem cmdCycle_env_frees (c : Byte) (s : State) : (cmdCycle c s).env.frees = s.env.frees := rfl
@[simp] theorem cmdCycle_env_trace (c : Byte) (s : State) : (cmdCycle c s).env.trace = s.env.trace ++ [.cmd c] := rfl
@[simp] theorem cmdCycle_env_reads (c : Byte) (s : State) : (cmdCycle c s).env.reads = s.env.reads := rfl
@[simp] theorem cmdCycle_pins_dir (c : Byte) (s : State) : (cmdCycle c s).pins.dir = s.pins.dir := rfl
@[simp] theorem addrCycle_cfg (b : Byte) (s : State) : (addrCycle b s).cfg = s.cfg := rfl
@[simp] theorem addrCycle_regs (b : Byte) (s : State) : (addrCycle b s).regs = s.regs := rfl
@[simp] theorem addrCycle_st (b : Byte) (s : State) : (addrCycle b s).st = s.st := rfl
@[simp] theorem addrCycle_ids (b : Byte) (s : State) : (addrCycle b s).ids = s.ids := rfl
@[simp] theorem addrCycle_bulk (b : Byte) (s : State) : (addrCycle b s).bulk = s.bulk := rfl
@[simp] theorem addrCycle_seq (b : Byte) (s : State) : (addrCycle b s).seq = s.seq := rfl
@[simp] theorem addrCycle_bufA (b : Byte) (s : State) : (addrCycle b s).bufA = s.bufA := rfl
@[simp] theorem addrCycle_bufC (b : Byte) (s : State) : (addrCycle b s).bufC = s.bufC := rfl
@[simp] theorem addrCycle_env_inputs (b : Byte) (s : State) : (addrCycle b s).env.inputs = s.env.inputs := rfl
@[simp] theorem addrCycle_env_answers (b : Byte) (s : State) : (addrCycle b s).env.answers = s.env.answers := rfl
@[simp] theorem addrCycle_env_draws (b : Byte) (s : State) : (addrCycle b s).env.draws = s.env.draws := rfl
@[simp] theorem addrCycle_env_frees (b : Byte) (s : State) : (addrCycle b s).env.frees = s.env.frees := rfl
@[simp] theorem addrCycle_env_trace (b : Byte) (s : State) : (addrCycle b s).env.trace = s.env.trace ++ [.addr b] := rfl
@[simp] theorem addrCycle_env_reads (b : Byte) (s : State) : (addrCycle b s).env.reads = s.env.reads := rfl
@[simp] theorem addrCycle_pins_dir (b : Byte) (s : State) : (addrCycle b s).pins.dir = s.pins.dir := rfl
@[simp] theorem writeCycle_cfg (w : Word) (s : State) : (writeCycle w s).cfg = s.cfg := rfl
@[simp] theorem writeCycle_regs (w : Word) (s : State) : (writeCycle w s).regs = s.regs := rfl
@[simp] theorem writeCycle_st (w : Word) (s : State) : (writeCycle w s).st = s.st := rfl
@[simp] theorem writeCycle_ids (w : Word) (s : State) : (writeCycle w s).ids = s.ids := rfl
@[simp] theorem writeCycle_bulk (w : Word) (s : State) : (writeCycle w s).bulk = s.bulk := rfl
@[simp] theorem writeCycle_seq (w : Word) (s : State) : (writeCycle w s).seq = s.seq := rfl
@[simp] theorem writeCycle_bufA (w : Word) (s : State) : (writeCycle w s).bufA = s.bufA := rfl
@[simp] theorem writeCycle_bufC (w : Word) (s : State) : (writeCycle w s).bufC = s.bufC := rfl
@[simp] theorem writeCycle_env_inputs (w : Word) (s : State) : (writeCycle w s).env.inputs = s.env.inputs := rfl
@[simp] theorem writeCycle_env_answers (w : Word) (s : State) : (writeCycle w s).env.answers = s.env.answers := rfl
@[simp] theorem writeCycle_env_draws (w : Word) (s : State) : (writeCycle w s).env.draws = s.env.draws := rfl
@[simp] theorem writeCycle_env_frees (w : Word) (s : State) : (writeCycle w s).env.frees = s.env.frees := rfl
@[simp] theorem writeCycle_env_trace (w : Word) (s : State) : (writeCycle w s).env.trace = s.env.trace ++ [.wr w] := rfl
@[simp] theorem writeCycle_env_reads (w : Word) (s : State) : (writeCycle w s).env.reads = s.env.reads := rfl
@[simp] theorem writeCycle_pins_dir (w : Word) (s : State) : (writeCycle w s).pins.dir = s.pins.dir := rfl
@[simp] theorem readCycle_cfg (s : State) : (readCycle s).cfg = s.cfg := rfl
@[simp] theorem readCycle_regs (s : State) : (readCycle s).regs = s.regs := rfl
@[simp] theorem readCycle_st (s : State) : (readCycle s).st = s.st := rfl
@[simp] theorem readCycle_ids (s : State) : (readCycle s).ids = s.ids := rfl
@[simp] theorem readCycle_bulk (s : State) : (readCycle s).bulk = s.bulk := rfl
@[simp] theorem readCycle_seq (s : State) : (readCycle s).seq = s.seq := rfl
@[simp] theorem readCycle_bufA (s : State) : (readCycle s).bufA = s.bufA := rfl
@[simp] theorem readCycle_bufC (s : State) : (readCycle s).bufC = s.bufC := rfl
@[simp] theorem readCycle_env_inputs (s : State) : (readCycle s).env.inputs = s.env.inputs := rfl
@[simp] theorem readCycle_env_answers (s : State) : (readCycle s).env.answers = s.env.answers.tail := rfl
@[simp] theorem readCycle_env_draws (s : State) : (readCycle s).env.draws = s.env.draws + 1 := rfl
@[simp] theorem readCycle_env_frees (s : State) : (readCycle s).env.frees = s.env.frees := rfl
@[simp] theorem readCycle_env_trace (s : State) : (readCycle s).env.trace = s.env.trace ++ [.rd (answer s 0)] := rfl
@[simp] theorem readCycle_env_reads (s : State) : (readCycle s).env.reads = s.env.reads := rfl
@[simp] theorem readCycle_pins_dir (s : State) : (readCycle s).pins.dir = s.pins.dir := rfl
@[simp] theorem writeBufCycle_cfg (s : State) : (writeBufCycle s).cfg = s.cfg := rfl
@[simp] theorem writeBufCycle_regs (s : State) : (writeBufCycle s).regs = s.regs := rfl
@[simp] theorem writeBufCycle_st (s : State) : (writeBufCycle s).st = s.st := rfl
@[simp] theorem writeBufCycle_ids (s : State) : (writeBufCycle s).ids = s.ids := rfl
@[simp] theorem writeBufCycle_bulk (s : State) : (writeBufCycle s).bulk = s.bulk := rfl
@[simp] theorem writeBufCycle_bufA (s : State) : (writeBufCycle s).bufA = s.bufA := rfl
@[simp] theorem writeBufCycle_bufC (s : State) : (writeBufCycle s).bufC = s.bufC := rfl
@[simp] theorem writeBufCycle_env_inputs (s : State) : (writeBufCycle s).env.inputs = s.env.inputs := rfl
@[simp] theorem writeBufCycle_env_answers (s : State) : (writeBufCycle s).env.answers = s.env.answers := rfl
@[simp] theorem writeBufCycle_env_draws (s : State) : (writeBufCycle s).env.draws = s.env.draws := rfl
@[simp] theorem writeBufCycle_env_frees (s : State) : (writeBufCycle s).env.frees = s.env.frees + 1 := rfl
@[simp] theorem writeBufCycle_env_trace (s : State) : (writeBufCycle s).env.trace = s.env.trace ++ [.wr (memRead s s.seq.wcnt.toNat)] := rfl
@[simp] theorem writeBufCycle_env_reads (s : State) : (writeBufCycle s).env.reads = s.env.reads := rfl
@[simp] theorem writeBufCycle_seq_pc (s : State) : (writeBufCycle s).seq.pc = s.seq.pc := rfl
@[simp] theorem writeBufCycle_seq_resume (s : State) : (writeBufCycle s).seq.resume = s.seq.resume := rfl
@[simp] theorem writeBufCycle_seq_cur (s : State) : (writeBufCycle s).seq.cur = s.seq.cur := rfl
@[simp] theorem writeBufCycle_seq_wcnt (s : State) : (writeBufCycle s).seq.wcnt = s.seq.wcnt + 1 := rfl
@[simp] theorem writeBufCycle_seq_sr (s : State) : (writeBufCycle s).seq.sr = s.seq.sr := rfl
@[simp] theorem writeBufCycle_seq_tmrCnt (s : State) : (writeBufCycle s).seq.tmrCnt = s.seq.tmrCnt := rfl
@[simp] theorem writeBufCycle_seq_tmrThr (s : State) : (writeBufCycle s).seq.tmrThr = s.seq.tmrThr := rfl
@[simp] theorem writeBufCycle_seq_obs (s : State) : (writeBufCycle s).seq.obs = s.seq.obs := rfl
@[simp] theorem writeBufCycle_seq_tmp (s : State) : (writeBufCycle s).seq.tmp = s.seq.tmp := rfl
@[simp] theorem writeBufCycle_pins_dir (s : State) : (writeBufCycle s).pins.dir = s.pins.dir := rfl
@[simp] theorem readBufACycle_cfg (s : State) : (readBufACycle s).cfg = s.cfg := rfl
@[simp] theorem readBufACycle_regs (s : State) : (readBufACycle s).regs = s.regs := rfl
@[simp] theorem readBufACycle_st (s : State) : (readBufACycle s).st = s.st := rfl
@[simp] theorem readBufACycle_ids (s : State) : (readBufACycle s).ids = s.ids := rfl
@[simp] theorem readBufACycle_bulk (s : State) : (readBufACycle s).bulk = s.bulk := rfl
@[simp] theorem readBufACycle_bufC (s : State) : (readBufACycle s).bufC = s.bufC := rfl
@[simp] theorem readBufACycle_env_inputs (s : State) : (readBufACycle s).env.inputs = s.env.inputs := rfl
@[simp] theorem readBufACycle_env_answers (s : State) : (readBufACycle s).env.answers = s.env.answers.tail := rfl
@[simp] theorem readBufACycle_env_draws (s : State) : (readBufACycle s).env.draws = s.env.draws + 1 := rfl
@[simp] theorem readBufACycle_env_frees (s : State) : (readBufACycle s).env.frees = s.env.frees := rfl
@[simp] theorem readBufACycle_env_trace (s : State) : (readBufACycle s).env.trace = s.env.trace ++ [.rd (answer s 0)] := rfl
@[simp] theorem readBufACycle_env_reads (s : State) : (readBufACycle s).env.reads = s.env.reads := rfl
@[simp] theorem readBufACycle_seq_pc (s : State) : (readBufACycle s).seq.pc = s.seq.pc := rfl
@[simp] theorem readBufACycle_seq_resume (s : State) : (readBufACycle s).seq.resume = s.seq.resume := rfl
@[simp] theorem readBufACycle_seq_cur (s : State) : (readBufACycle s).seq.cur = s.seq.cur := rfl
@[simp] theorem readBufACycle_seq_wcnt (s : State) : (readBufACycle s).seq.wcnt = s.seq.wcnt + 1 := rfl
@[simp] theorem readBufACycle_seq_sr (s : State) : (readBufACycle s).seq.sr = s.seq.sr := rfl
@[simp] theorem readBufACycle_seq_tmrCnt (s : State) : (readBufACycle s).seq.tmrCnt = s.seq.tmrCnt := rfl
@[simp] theorem readBufACycle_seq_tmrThr (s : State) : (readBufACycle s).seq.tmrThr = s.seq.tmrThr := rfl
@[simp] theorem readBufACycle_seq_obs (s : State) : (readBufACycle s).seq.obs = s.seq.obs := rfl
@[simp] theorem readBufACycle_seq_tmp (s : State) : (readBufACycle s).seq.tmp = s.seq.tmp := rfl
@[simp] theorem readBufACycle_pins_dir (s : State) : (readBufACycle s).pins.dir = s.pins.dir := rfl
@[simp] theorem readBufACycle_bufA (s : State) : (readBufACycle s).bufA = if s.seq.wcnt.toNat < s.cfg.bufWords then
    cellPut s.seq.wcnt.toNat (busWord s.cfg (answer s 0)) s.bufA else s.bufA := rfl
@[simp] theorem readBufCCycle_cfg (s : State) : (readBufCCycle s).cfg = s.cfg := rfl
@[simp] theorem readBufCCycle_regs (s : State) : (readBufCCycle s).regs = s.regs := rfl
@[simp] theorem readBufCCycle_st (s : State) : (readBufCCycle s).st = s.st := rfl
@[simp] theorem readBufCCycle_ids (s : State) : (readBufCCycle s).ids = s.ids := rfl
@[simp] theorem readBufCCycle_bulk (s : State) : (readBufCCycle s).bulk = s.bulk := rfl
@[simp] theorem readBufCCycle_bufA (s : State) : (readBufCCycle s).bufA = s.bufA := rfl
@[simp] theorem readBufCCycle_env_inputs (s : State) : (readBufCCycle s).env.inputs = s.env.inputs := rfl
@[simp] theorem readBufCCycle_env_answers (s : State) : (readBufCCycle s).env.answers = s.env.answers.tail := rfl
@[simp] theorem readBufCCycle_env_draws (s : State) : (readBufCCycle s).env.draws = s.env.draws + 1 := rfl
@[simp] theorem readBufCCycle_env_frees (s : State) : (readBufCCycle s).env.frees = s.env.frees := rfl
@[simp] theorem readBufCCycle_env_trace (s : State) : (readBufCCycle s).env.trace = s.env.trace ++ [.rd (answer s 0)] := rfl
@[simp] theorem readBufCCycle_env_reads (s : State) : (readBufCCycle s).env.reads = s.env.reads := rfl
@[simp] theorem readBufCCycle_seq_pc (s : State) : (readBufCCycle s).seq.pc = s.seq.pc := rfl
@[simp] theorem readBufCCycle_seq_resume (s : State) : (readBufCCycle s).seq.resume = s.seq.resume := rfl
@[simp] theorem readBufCCycle_seq_cur (s : State) : (readBufCCycle s).seq.cur = s.seq.cur := rfl
@[simp] theorem readBufCCycle_seq_wcnt (s : State) : (readBufCCycle s).seq.wcnt = s.seq.wcnt + 1 := rfl
@[simp] theorem readBufCCycle_seq_sr (s : State) : (readBufCCycle s).seq.sr = s.seq.sr := rfl
@[simp] theorem readBufCCycle_seq_tmrCnt (s : State) : (readBufCCycle s).seq.tmrCnt = s.seq.tmrCnt := rfl
@[simp] theorem readBufCCycle_seq_tmrThr (s : State) : (readBufCCycle s).seq.tmrThr = s.seq.tmrThr := rfl
@[simp] theorem readBufCCycle_seq_obs (s : State) : (readBufCCycle s).seq.obs = s.seq.obs := rfl
@[simp] theorem readBufCCycle_seq_tmp (s : State) : (readBufCCycle s).seq.tmp = s.seq.tmp := rfl
@[simp] theorem readBufCCycle_pins_dir (s : State) : (readBufCCycle s).pins.dir = s.pins.dir := rfl
@[simp] theorem readBufCCycle_bufC (s : State) : (readBufCCycle s).bufC = if s.seq.wcnt.toNat < s.cfg.bufWords then
    cellPut s.seq.wcnt.toNat (busWord s.cfg (answer s 0)) s.bufC else s.bufC := rfl
@[simp] theorem readByteCycle_cfg (i : Nat) (s : State) : (readByteCycle i s).cfg = s.cfg := rfl
@[simp] theorem readByteCycle_regs (i : Nat) (s : State) : (readByteCycle i s).regs = s.regs := rfl
@[simp] theorem readByteCycle_st (i : Nat) (s : State) : (readByteCycle i s).st = s.st := rfl
@[simp] theorem readByteCycle_ids (i : Nat) (s : State) : (readByteCycle i s).ids = s.ids := rfl
@[simp] theorem readByteCycle_bulk (i : Nat) (s : State) : (readByteCycle i s).bulk = s.bulk := rfl
@[simp] theorem readByteCycle_bufA (i : Nat) (s : State) : (readByteCycle i s).bufA = s.bufA := rfl
@[simp] theorem readByteCycle_bufC (i : Nat) (s : State) : (readByteCycle i s).bufC = s.bufC := rfl
@[simp] theorem readByteCycle_env_inputs (i : Nat) (s : State) : (readByteCycle i s).env.inputs = s.env.inputs := rfl
@[simp] theorem readByteCycle_env_answers (i : Nat) (s : State) : (readByteCycle i s).env.answers = s.env.answers.tail := rfl
@[simp] theorem readByteCycle_env_draws (i : Nat) (s : State) : (readByteCycle i s).env.draws = s.env.draws + 1 := rfl
@[simp] theorem readByteCycle_env_frees (i : Nat) (s : State) : (readByteCycle i s).env.frees = s.env.frees := rfl
@[simp] theorem readByteCycle_env_trace (i : Nat) (s : State) : (readByteCycle i s).env.trace = s.env.trace ++ [.rd (answer s 0)] := rfl
@[simp] theorem readByteCycle_env_reads (i : Nat) (s : State) : (readByteCycle i s).env.reads = s.env.reads := rfl
@[simp] theorem readByteCycle_seq_pc (i : Nat) (s : State) : (readByteCycle i s).seq.pc = s.seq.pc := rfl
@[simp] theorem readByteCycle_seq_resume (i : Nat) (s : State) : (readByteCycle i s).seq.resume = s.seq.resume := rfl
@[simp] theorem readByteCycle_seq_cur (i : Nat) (s : State) : (readByteCycle i s).seq.cur = s.seq.cur := rfl
@[simp] theorem readByteCycle_seq_wcnt (i : Nat) (s : State) : (readByteCycle i s).seq.wcnt = s.seq.wcnt := rfl
@[simp] theorem readByteCycle_seq_sr (i : Nat) (s : State) : (readByteCycle i s).seq.sr = s.seq.sr := rfl
@[simp] theorem readByteCycle_seq_tmrCnt (i : Nat) (s : State) : (readByteCycle i s).seq.tmrCnt = s.seq.tmrCnt := rfl
@[simp] theorem readByteCycle_seq_tmrThr (i : Nat) (s : State) : (readByteCycle i s).seq.tmrThr = s.seq.tmrThr := rfl
@[simp] theorem readByteCycle_seq_obs (i : Nat) (s : State) : (readByteCycle i s).seq.obs = s.seq.obs := rfl
@[simp] theorem readByteCycle_seq_tmp (i : Nat) (s : State) : (readByteCycle i s).seq.tmp = s.seq.tmp.take i ++ [(answer s 0).setWidth 8] := rfl
@[simp] theorem readByteCycle_pins_dir (i : Nat) (s : State) : (readByteCycle i s).pins.dir = s.pins.dir := rfl
@[simp] theorem readStatusCycle_cfg (s : State) : (readStatusCycle s).cfg = s.cfg := rfl
@[simp] theorem readStatusCycle_regs (s : State) : (readStatusCycle s).regs = s.regs := rfl
@[simp] theorem readStatusCycle_ids (s : State) : (readStatusCycle s).ids = s.ids := rfl
@[simp] theorem readStatusCycle_bulk (s : State) : (readStatusCycle s).bulk = s.bulk := rfl
@[simp] theorem readStatusCycle_bufA (s : State) : (readStatusCycle s).bufA = s.bufA := rfl
@[simp] theorem readStatusCycle_bufC (s : State) : (readStatusCycle s).bufC = s.bufC := rfl
@[simp] theorem readStatusCycle_env_inputs (s : State) : (readStatusCycle s).env.inputs = s.env.inputs := rfl
@[simp] theorem readStatusCycle_env_answers (s : State) : (readStatusCycle s).env.answers = s.env.answers.tail := rfl
@[simp] theorem readStatusCycle_env_draws (s : State) : (readStatusCycle s).env.draws = s.env.draws + 1 := rfl
@[simp] theorem readStatusCycle_env_frees (s : State) : (readStatusCycle s).env.frees = s.env.frees := rfl
@[simp] theorem readStatusCycle_env_trace (s : State) : (readStatusCycle s).env.trace = s.env.trace ++ [.rd (answer s 0)] := rfl
@[simp] theorem readStatusCycle_env_reads (s : State) : (readStatusCycle s).env.reads = s.env.reads := rfl
@[simp] theorem readStatusCycle_seq_pc (s : State) : (readStatusCycle s).seq.pc = s.seq.pc := rfl
@[simp] theorem readStatusCycle_seq_resume (s : State) : (readStatusCycle s).seq.resume = s.seq.resume := rfl
@[simp] theorem readStatusCycle_seq_cur (s : State) : (readStatusCycle s).seq.cur = s.seq.cur := rfl
@[simp] theorem readStatusCycle_seq_wcnt (s : State) : (readStatusCycle s).seq.wcnt = s.seq.wcnt := rfl
@[simp] theorem readStatusCycle_seq_sr (s : State) : (readStatusCycle s).seq.sr = (answer s 0).setWidth 8 := rfl
@[simp] theorem readStatusCycle_seq_tmrCnt (s : State) : (readStatusCycle s).seq.tmrCnt = s.seq.tmrCnt := rfl
@[simp] theorem readStatusCycle_seq_tmrThr (s : State) : (readStatusCycle s).seq.tmrThr = s.seq.tmrThr := rfl
@[simp] theorem readStatusCycle_seq_obs (s : State) : (readStatusCycle s).seq.obs = statusReady s.cfg ((answer s 0).setWidth 8) := rfl
@[simp] theorem readStatusCycle_seq_tmp (s : State) : (readStatusCycle s).seq.tmp = s.seq.tmp := rfl
@[simp] theorem readStatusCycle_st_busy (s : State) : (readStatusCycle s).st.busy = s.st.busy := rfl
@[simp] theorem readStatusCycle_st_done (s : State) : (readStatusCycle s).st.done = s.st.done := rfl
@[simp] theorem readStatusCycle_st_ovr (s : State) : (readStatusCycle s).st.ovr = s.st.ovr := rfl
@[simp] theorem readStatusCycle_st_result (s : State) : (readStatusCycle s).st.result = s.st.result := rfl
@[simp] theorem readStatusCycle_st_lastSr (s : State) : (readStatusCycle s).st.lastSr = (answer s 0).setWidth 8 := rfl
@[simp] theorem readStatusCycle_st_session (s : State) : (readStatusCycle s).st.session = s.st.session := rfl
@[simp] theorem readStatusCycle_st_idcap (s : State) : (readStatusCycle s).st.idcap = s.st.idcap := rfl
@[simp] theorem readStatusCycle_pins_dir (s : State) : (readStatusCycle s).pins.dir = s.pins.dir := rfl
@[simp] theorem samplePin_cfg (s : State) : (samplePin s).cfg = s.cfg := rfl
@[simp] theorem samplePin_regs (s : State) : (samplePin s).regs = s.regs := rfl
@[simp] theorem samplePin_st (s : State) : (samplePin s).st = s.st := rfl
@[simp] theorem samplePin_ids (s : State) : (samplePin s).ids = s.ids := rfl
@[simp] theorem samplePin_bulk (s : State) : (samplePin s).bulk = s.bulk := rfl
@[simp] theorem samplePin_bufA (s : State) : (samplePin s).bufA = s.bufA := rfl
@[simp] theorem samplePin_bufC (s : State) : (samplePin s).bufC = s.bufC := rfl
@[simp] theorem samplePin_env_inputs (s : State) : (samplePin s).env.inputs = s.env.inputs := rfl
@[simp] theorem samplePin_env_answers (s : State) : (samplePin s).env.answers = s.env.answers.tail := rfl
@[simp] theorem samplePin_env_draws (s : State) : (samplePin s).env.draws = s.env.draws + 1 := rfl
@[simp] theorem samplePin_env_frees (s : State) : (samplePin s).env.frees = s.env.frees := rfl
@[simp] theorem samplePin_env_trace (s : State) : (samplePin s).env.trace = s.env.trace ++ [.pin (pinAnswer s 0)] := rfl
@[simp] theorem samplePin_env_reads (s : State) : (samplePin s).env.reads = s.env.reads := rfl
@[simp] theorem samplePin_seq_pc (s : State) : (samplePin s).seq.pc = s.seq.pc := rfl
@[simp] theorem samplePin_seq_resume (s : State) : (samplePin s).seq.resume = s.seq.resume := rfl
@[simp] theorem samplePin_seq_cur (s : State) : (samplePin s).seq.cur = s.seq.cur := rfl
@[simp] theorem samplePin_seq_wcnt (s : State) : (samplePin s).seq.wcnt = s.seq.wcnt := rfl
@[simp] theorem samplePin_seq_sr (s : State) : (samplePin s).seq.sr = s.seq.sr := rfl
@[simp] theorem samplePin_seq_tmrCnt (s : State) : (samplePin s).seq.tmrCnt = s.seq.tmrCnt := rfl
@[simp] theorem samplePin_seq_tmrThr (s : State) : (samplePin s).seq.tmrThr = s.seq.tmrThr := rfl
@[simp] theorem samplePin_seq_obs (s : State) : (samplePin s).seq.obs = pinAnswer s 0 := rfl
@[simp] theorem samplePin_seq_tmp (s : State) : (samplePin s).seq.tmp = s.seq.tmp := rfl
@[simp] theorem samplePin_pins_dir (s : State) : (samplePin s).pins.dir = s.pins.dir := rfl
@[simp] theorem delayFor_cfg (t : BitVec 32) (s : State) : (delayFor t s).cfg = s.cfg := rfl
@[simp] theorem delayFor_regs (t : BitVec 32) (s : State) : (delayFor t s).regs = s.regs := rfl
@[simp] theorem delayFor_st (t : BitVec 32) (s : State) : (delayFor t s).st = s.st := rfl
@[simp] theorem delayFor_ids (t : BitVec 32) (s : State) : (delayFor t s).ids = s.ids := rfl
@[simp] theorem delayFor_bulk (t : BitVec 32) (s : State) : (delayFor t s).bulk = s.bulk := rfl
@[simp] theorem delayFor_bufA (t : BitVec 32) (s : State) : (delayFor t s).bufA = s.bufA := rfl
@[simp] theorem delayFor_bufC (t : BitVec 32) (s : State) : (delayFor t s).bufC = s.bufC := rfl
@[simp] theorem delayFor_env_inputs (t : BitVec 32) (s : State) : (delayFor t s).env.inputs = s.env.inputs := rfl
@[simp] theorem delayFor_env_answers (t : BitVec 32) (s : State) : (delayFor t s).env.answers = s.env.answers := rfl
@[simp] theorem delayFor_env_draws (t : BitVec 32) (s : State) : (delayFor t s).env.draws = s.env.draws := rfl
@[simp] theorem delayFor_env_frees (t : BitVec 32) (s : State) : (delayFor t s).env.frees = s.env.frees := rfl
@[simp] theorem delayFor_env_trace (t : BitVec 32) (s : State) : (delayFor t s).env.trace = s.env.trace ++ [.delay t] := rfl
@[simp] theorem delayFor_env_reads (t : BitVec 32) (s : State) : (delayFor t s).env.reads = s.env.reads := rfl
@[simp] theorem delayFor_seq_pc (t : BitVec 32) (s : State) : (delayFor t s).seq.pc = s.seq.pc := rfl
@[simp] theorem delayFor_seq_resume (t : BitVec 32) (s : State) : (delayFor t s).seq.resume = s.seq.resume := rfl
@[simp] theorem delayFor_seq_cur (t : BitVec 32) (s : State) : (delayFor t s).seq.cur = s.seq.cur := rfl
@[simp] theorem delayFor_seq_wcnt (t : BitVec 32) (s : State) : (delayFor t s).seq.wcnt = s.seq.wcnt := rfl
@[simp] theorem delayFor_seq_sr (t : BitVec 32) (s : State) : (delayFor t s).seq.sr = s.seq.sr := rfl
@[simp] theorem delayFor_seq_tmrCnt (t : BitVec 32) (s : State) : (delayFor t s).seq.tmrCnt = t := rfl
@[simp] theorem delayFor_seq_tmrThr (t : BitVec 32) (s : State) : (delayFor t s).seq.tmrThr = t := rfl
@[simp] theorem delayFor_seq_obs (t : BitVec 32) (s : State) : (delayFor t s).seq.obs = s.seq.obs := rfl
@[simp] theorem delayFor_seq_tmp (t : BitVec 32) (s : State) : (delayFor t s).seq.tmp = s.seq.tmp := rfl
@[simp] theorem delayFor_pins_dir (t : BitVec 32) (s : State) : (delayFor t s).pins.dir = s.pins.dir := rfl
@[simp] theorem loadTimer_cfg (s : State) : (loadTimer s).cfg = s.cfg := rfl
@[simp] theorem loadTimer_regs (s : State) : (loadTimer s).regs = s.regs := rfl
@[simp] theorem loadTimer_st (s : State) : (loadTimer s).st = s.st := rfl
@[simp] theorem loadTimer_ids (s : State) : (loadTimer s).ids = s.ids := rfl
@[simp] theorem loadTimer_bulk (s : State) : (loadTimer s).bulk = s.bulk := rfl
@[simp] theorem loadTimer_bufA (s : State) : (loadTimer s).bufA = s.bufA := rfl
@[simp] theorem loadTimer_bufC (s : State) : (loadTimer s).bufC = s.bufC := rfl
@[simp] theorem loadTimer_env (s : State) : (loadTimer s).env = s.env := rfl
@[simp] theorem loadTimer_seq_pc (s : State) : (loadTimer s).seq.pc = s.seq.pc := rfl
@[simp] theorem loadTimer_seq_resume (s : State) : (loadTimer s).seq.resume = s.seq.resume := rfl
@[simp] theorem loadTimer_seq_cur (s : State) : (loadTimer s).seq.cur = s.seq.cur := rfl
@[simp] theorem loadTimer_seq_wcnt (s : State) : (loadTimer s).seq.wcnt = s.seq.wcnt := rfl
@[simp] theorem loadTimer_seq_sr (s : State) : (loadTimer s).seq.sr = s.seq.sr := rfl
@[simp] theorem loadTimer_seq_tmrCnt (s : State) : (loadTimer s).seq.tmrCnt = 0 := rfl
@[simp] theorem loadTimer_seq_tmrThr (s : State) : (loadTimer s).seq.tmrThr = s.cfg.thrFlash := rfl
@[simp] theorem loadTimer_seq_obs (s : State) : (loadTimer s).seq.obs = s.seq.obs := rfl
@[simp] theorem loadTimer_seq_tmp (s : State) : (loadTimer s).seq.tmp = s.seq.tmp := rfl
@[simp] theorem loadTimer_pins_dir (s : State) : (loadTimer s).pins.dir = s.pins.dir := rfl
@[simp] theorem answer_setDir (d : Dir) (s : State) (n : Nat) : answer (setDir d s) n = answer s n := rfl
@[simp] theorem memRead_setDir (d : Dir) (s : State) (i : Nat) : memRead (setDir d s) i = memRead s i := rfl
@[simp] theorem readStatusCycle_st (s : State) :
    (readStatusCycle s).st = { s.st with lastSr := (answer s 0).setWidth 8 } := rfl

end Sys2Proof.Machine
end

