-- ==== Sys2Proof/Laws/Bytes.lean ====
section
/-! SUPPORT. Bytes in registers: what `byteOf` finds in packed bytes. -/

namespace Sys2Proof.Machine

theorem getLsbD_pack4 (b0 b1 b2 b3 : Byte) (i : Nat) : (pack4 b0 b1 b2 b3).getLsbD i
    = if i < 8 then b0.getLsbD i else if i < 16 then b1.getLsbD (i - 8)
      else if i < 24 then b2.getLsbD (i - 16) else b3.getLsbD (i - 24) := by
  have e : (pack4 b0 b1 b2 b3).getLsbD i = ((b3 ++ b2 ++ b1 ++ b0 : BitVec (8 + 8 + 8 + 8))).getLsbD i := rfl
  rw [e]
  simp only [BitVec.getLsbD_append]
  by_cases h1 : i < 8
  · simp [h1]
  by_cases h2 : i < 16
  · simp [h1, h2, show i - 8 < 8 by omega]
  by_cases h3 : i < 24
  · simp [h1, h2, h3, show ¬ i - 8 < 8 by omega, show i - 8 - 8 = i - 16 by omega, show i - 16 < 8 by omega]
  · simp [h1, h2, h3, show ¬ i - 8 < 8 by omega, show ¬ i - 8 - 8 < 8 by omega, show i - 8 - 8 - 8 = i - 24 by omega]

theorem byteOf_pack4 (b0 b1 b2 b3 : Byte) (k : Nat) (hk : k < 4) :
    byteOf k (pack4 b0 b1 b2 b3) = [b0, b1, b2, b3].getD k 0 := by
  apply BitVec.eq_of_getLsbD_eq
  intro j hj
  interval_cases k <;>
    simp only [byteOf, BitVec.getLsbD_setWidth, BitVec.getLsbD_ushiftRight, getLsbD_pack4, hj] <;>
    interval_cases j <;> simp

theorem getLsbD_pack2 (b0 b1 : Byte) (i : Nat) : (pack2 b0 b1).getLsbD i
    = if i < 8 then b0.getLsbD i else b1.getLsbD (i - 8) := by
  have e : (pack2 b0 b1).getLsbD i = ((b1 ++ b0 : BitVec (8 + 8)).setWidth 32).getLsbD i := rfl
  rw [e, BitVec.getLsbD_setWidth, BitVec.getLsbD_append]
  by_cases h1 : i < 8
  · simp [h1]; omega
  by_cases h2 : i < 32
  · simp [h1, h2]
  · simp [h1, h2]; rw [BitVec.getLsbD_of_ge]; omega

theorem byteOf_pack2 (b0 b1 : Byte) (k : Nat) (hk : k < 4) :
    byteOf k (pack2 b0 b1) = [b0, b1, 0, 0].getD k 0 := by
  apply BitVec.eq_of_getLsbD_eq
  intro j hj
  interval_cases k <;>
    simp only [byteOf, BitVec.getLsbD_setWidth, BitVec.getLsbD_ushiftRight, getLsbD_pack2, hj] <;>
    interval_cases j <;> simp

end Sys2Proof.Machine
end

