-- ==== Sys2Proof/Laws/Memory.lean ====
section
/-! SUPPORT. The buffers: read after write, and the canonical form every memory operation keeps. -/

namespace Sys2Proof.Machine

theorem cellGet_cellPut_same (i : Nat) (v : Word) (m : List (Nat × Word)) :
    cellGet i (cellPut i v m) = some v := by
  induction m with
  | nil => simp [cellPut, cellGet]
  | cons c rest ih =>
    unfold cellPut
    split
    · simp [cellGet]
    · split
      · simp [cellGet]
      · simp [cellGet, *]

theorem cellGet_cellPut_other {i j : Nat} (h : i ≠ j) (v : Word) (m : List (Nat × Word)) :
    cellGet i (cellPut j v m) = cellGet i m := by
  induction m with
  | nil => simp [cellPut, cellGet, Ne.symm h]
  | cons c rest ih =>
    unfold cellPut
    split
    · simp [cellGet, Ne.symm h]
    · split
      · rename_i hc
        simp [cellGet, hc, Ne.symm h]
      · simp [cellGet, ih]

theorem cellsAbove_cellPut {lo i : Nat} (h : lo ≤ i) (v : Word) (m : List (Nat × Word))
    (hm : cellsAbove lo m = true) : cellsAbove lo (cellPut i v m) = true := by
  induction m generalizing lo with
  | nil => simp [cellPut, cellsAbove, h]
  | cons c rest ih =>
    simp only [cellsAbove, Bool.and_eq_true, decide_eq_true_eq] at hm
    unfold cellPut
    split
    · rename_i hc
      simp only [cellsAbove, Bool.and_eq_true, decide_eq_true_eq]
      exact ⟨h, hc, hm.2⟩
    · split
      · rename_i hc
        simp only [cellsAbove, Bool.and_eq_true, decide_eq_true_eq]
        exact ⟨h, hc ▸ hm.2⟩
      · simp only [cellsAbove, Bool.and_eq_true, decide_eq_true_eq]
        exact ⟨hm.1, ih (by omega) hm.2⟩

theorem all_cellPut (f : Nat × Word → Bool) (i : Nat) (v : Word) (m : List (Nat × Word))
    (hv : f (i, v) = true) (hm : m.all f = true) : (cellPut i v m).all f = true := by
  induction m with
  | nil => simp [cellPut, hv]
  | cons c rest ih =>
    simp only [List.all_cons, Bool.and_eq_true] at hm
    unfold cellPut
    split
    · simp [hv, hm.1, hm.2]
    · split
      · simp only [List.all_cons, Bool.and_eq_true]
        exact ⟨hv, hm.2⟩
      · simp only [List.all_cons, Bool.and_eq_true]
        exact ⟨hm.1, ih hm.2⟩

@[simp] theorem busWord_busWord (c : Config) (w : Word) : busWord c (busWord c w) = busWord c w := by
  unfold busWord
  split
  · rfl
  · ext i; simp [BitVec.and_assoc]

/-- A write of one word below BUF_WORDS keeps the canonical form. -/
theorem wf_cellPut (c : Config) (i : Nat) (v : Word) (m : List (Nat × Word)) (hi : i < c.bufWords)
    (hm : Memory.wf c m = true) : Memory.wf c (cellPut i (busWord c v) m) = true := by
  simp only [Memory.wf, Bool.and_eq_true] at hm ⊢
  exact ⟨cellsAbove_cellPut (Nat.zero_le i) _ m hm.1, all_cellPut _ _ _ _ (by simp [hi]) hm.2⟩

theorem wf_nil (c : Config) : Memory.wf c [] = true := rfl

/-- `MemWrite` keeps the canonical form of both buffers. -/
theorem memWrite_buffersWf (i : Nat) (v : Word) (s : State) (h : BuffersWf s) :
    BuffersWf (memWrite i v s) := by
  refine ⟨?_, h.2⟩
  show Memory.wf s.cfg (if i < s.cfg.bufWords then _ else _) = true
  split
  · exact wf_cellPut s.cfg i v s.bufA (by assumption) h.1
  · exact h.1

/-- `CWrite` keeps the canonical form of both buffers. -/
theorem cWrite_buffersWf (i : Nat) (v : Word) (s : State) (h : BuffersWf s) :
    BuffersWf (cWrite i v s) := by
  refine ⟨h.1, ?_⟩
  show Memory.wf s.cfg (if i < s.cfg.bufWords then _ else _) = true
  split
  · exact wf_cellPut s.cfg i v s.bufC (by assumption) h.2
  · exact h.2

/-- Reset's buffers are in canonical form. -/
theorem resetOf_buffersWf (c : Config) : BuffersWf (resetOf c) := ⟨rfl, rfl⟩

/-- A read of word i after a write of it gives the word written, on the bus's width (R72). -/
theorem memRead_memWrite_same (i : Nat) (v : Word) (s : State) (hi : i < s.cfg.bufWords) :
    memRead (memWrite i v s) i = busWord s.cfg v := by
  simp [memRead, memWrite, hi, cellGet_cellPut_same]

/-- A write of word j leaves every other listed word alone. -/
theorem memWrite_other {i j : Nat} (h : i ≠ j) (v : Word) (s : State) :
    cellGet i (memWrite j v s).bufA = cellGet i s.bufA := by
  show cellGet i (if j < s.cfg.bufWords then _ else _) = _
  split
  · exact cellGet_cellPut_other h _ _
  · rfl

end Sys2Proof.Machine
end

