-- ==== Sys2Proof/Laws/Run.lean ====
section
/-! SUPPORT. What the shared operations can do, said once: runs of micro-operations (`Reach`), and what a
run of bus cycles changes and leaves alone (`Span`, `Quiet`). -/

namespace Sys2Proof.Machine

/-! ### Runs -/

/-- From s the block makes n micro-operations and stands in t. -/
def Reach (n : Nat) (s t : State) : Prop := ∀ m, drive (n + m) s = drive m t

theorem reach_refl (s : State) : Reach 0 s s := fun m => by rw [Nat.zero_add]

theorem Reach.trans {a b : Nat} {s t u : State} (h : Reach a s t) (g : Reach b t u) :
    Reach (a + b) s u := fun m => by rw [Nat.add_assoc, h, g]

theorem reach_tick {s : State} (h : moves s = true) : Reach 1 s (tick s) := fun m => by
  rw [Nat.add_comm]; simp [drive, h]

theorem drive_still {s : State} (h : moves s = false) (n : Nat) : drive n s = s := by
  cases n <;> simp [drive, h]

/-- A run that comes to rest within the budget is what `drive` gives. -/
theorem Reach.drive_eq {n N : Nat} {s t : State} (h : Reach n s t) (hn : n ≤ N) (ht : moves t = false) :
    drive N s = t := by
  obtain ⟨m, rfl⟩ := Nat.exists_eq_add_of_le hn
  rw [h, drive_still ht]

/-- Where a step stops does not matter: a run cut in two is the same run. -/
theorem drive_add (a b : Nat) (s : State) : drive (a + b) s = drive b (drive a s) := by
  induction a generalizing s with
  | zero => simp [drive]
  | succ a ih =>
    rw [Nat.succ_add]
    by_cases h : moves s
    · simp [drive, h, ih]
    · simp only [Bool.not_eq_true] at h
      rw [drive_still h, drive_still h, drive_still h]

/-- The sequencer at the micro-operations k of operation op. -/
abbrev atK (op : Byte) (k : List Micro) (s : State) : State := setPc (.exec op k) s

@[simp] theorem setPc_setPc (p q : Pc) (s : State) : setPc p (setPc q s) = setPc p s := rfl

theorem moves_atK (op : Byte) (k : List Micro) (s : State) : moves (atK op k s) = true := rfl

theorem setPc_applyAct_setPc (p q : Pc) (a : Act) (s : State) :
    setPc p (applyAct a (setPc q s)) = setPc p (applyAct a s) := by
  cases a <;> rfl

theorem reach_act (op : Byte) (a : Act) (k : List Micro) (s : State) :
    Reach 1 (atK op (.act a :: k) s) (atK op k (applyAct a s)) := by
  have h := reach_tick (moves_atK op (.act a :: k) s)
  have e : tick (atK op (.act a :: k) s) = atK op k (applyAct a s) :=
    setPc_applyAct_setPc _ _ a s
  rwa [e] at h

theorem reach_raiseUnlessReady {op : Byte} {r : Result} {k : List Micro} {s : State}
    (h : s.seq.obs = true) : Reach 1 (atK op (.raiseUnlessReady r :: k) s) (atK op k s) := by
  have g := reach_tick (moves_atK op (.raiseUnlessReady r :: k) s)
  have e : tick (atK op (.raiseUnlessReady r :: k) s) = atK op k s := by
    simp [tick, sequencerStep, runMicro, h]
  rwa [e] at g

theorem reach_raiseIfFailed {op : Byte} {r : Result} {k : List Micro} {s : State}
    (h : statusFailed s.seq.sr = false) : Reach 1 (atK op (.raiseIfFailed r :: k) s) (atK op k s) := by
  have g := reach_tick (moves_atK op (.raiseIfFailed r :: k) s)
  have e : tick (atK op (.raiseIfFailed r :: k) s) = atK op k s := by
    simp [tick, sequencerStep, runMicro, h]
  rwa [e] at g

theorem endOp_setPc (r : Result) (p : Pc) (s : State) : endOp r (setPc p s) = endOp r s := by
  simp only [endOp, setPc_seq_resume]
  cases s.seq.resume <;> rfl

theorem reach_raise {op : Byte} {r : Result} {k : List Micro} {s : State} (h : s.seq.obs = false) :
    Reach 1 (atK op (.raiseUnlessReady r :: k) s) (endOp r s) := by
  have g := reach_tick (moves_atK op (.raiseUnlessReady r :: k) s)
  have e : tick (atK op (.raiseUnlessReady r :: k) s) = endOp r s := by
    simp [tick, sequencerStep, runMicro, h, endOp_setPc]
  rwa [e] at g

theorem reach_fail {op : Byte} {r : Result} {k : List Micro} {s : State}
    (h : statusFailed s.seq.sr = true) :
    Reach 1 (atK op (.raiseIfFailed r :: k) s) (endOp r s) := by
  have g := reach_tick (moves_atK op (.raiseIfFailed r :: k) s)
  have e : tick (atK op (.raiseIfFailed r :: k) s) = endOp r s := by
    simp [tick, sequencerStep, runMicro, h, endOp_setPc]
  rwa [e] at g

theorem reach_end (op : Byte) (s : State) : Reach 1 (atK op [] s) (endOp .success s) := by
  have g := reach_tick (moves_atK op [] s)
  have e : tick (atK op [] s) = endOp .success s := endOp_setPc _ _ s
  rwa [e] at g

theorem reach_check {op : Byte} {k : List Micro} {s : State}
    (h : checkRequest s.cfg s.st.session s.seq.cur = none) :
    Reach 1 (atK op (.check :: k) s) (atK op k s) := by
  have g := reach_tick (moves_atK op (.check :: k) s)
  have e : tick (atK op (.check :: k) s) = atK op k s := by
    simp [tick, sequencerStep, runMicro, h]
  rwa [e] at g

theorem reach_checkFails {op : Byte} {k : List Micro} {s : State} {r : Result}
    (h : checkRequest s.cfg s.st.session s.seq.cur = some r) :
    Reach 1 (atK op (.check :: k) s) (endOp r s) := by
  have g := reach_tick (moves_atK op (.check :: k) s)
  have e : tick (atK op (.check :: k) s) = endOp r s := by
    simp [tick, sequencerStep, runMicro, h, endOp_setPc]
  rwa [e] at g

/-! ### Expected traces compose -/

@[simp] theorem busTrace_nil (d : Dir) : busTrace d [] = [] := rfl

@[simp] theorem busTrace_cmd (d : Dir) (c : Byte) (es : List Event) : busTrace d (.cmd c :: es)
    = (if d = .out then [] else [.dir .out]) ++ .cmd c :: busTrace .out es := rfl

@[simp] theorem busTrace_addr (d : Dir) (b : Byte) (es : List Event) : busTrace d (.addr b :: es)
    = (if d = .out then [] else [.dir .out]) ++ .addr b :: busTrace .out es := rfl

@[simp] theorem busTrace_wr (d : Dir) (w : Word) (es : List Event) : busTrace d (.wr w :: es)
    = (if d = .out then [] else [.dir .out]) ++ .wr w :: busTrace .out es := rfl

@[simp] theorem busTrace_rd (d : Dir) (w : Word) (es : List Event) : busTrace d (.rd w :: es)
    = (if d = .inn then [] else [.dir .inn]) ++ .rd w :: busTrace .inn es := rfl

@[simp] theorem busTrace_delay (d : Dir) (t : BitVec 32) (es : List Event) :
    busTrace d (.delay t :: es) = .delay t :: busTrace d es := by simp [busTrace, cycleDir]

@[simp] theorem busTrace_pin (d : Dir) (rb : Bool) (es : List Event) :
    busTrace d (.pin rb :: es) = .pin rb :: busTrace d es := by simp [busTrace, cycleDir]

@[simp] theorem dirAfter_nil (d : Dir) : dirAfter d [] = d := rfl
@[simp] theorem dirAfter_cmd (d : Dir) (c : Byte) (es : List Event) :
    dirAfter d (.cmd c :: es) = dirAfter .out es := rfl
@[simp] theorem dirAfter_addr (d : Dir) (b : Byte) (es : List Event) :
    dirAfter d (.addr b :: es) = dirAfter .out es := rfl
@[simp] theorem dirAfter_wr (d : Dir) (w : Word) (es : List Event) :
    dirAfter d (.wr w :: es) = dirAfter .out es := rfl
@[simp] theorem dirAfter_rd (d : Dir) (w : Word) (es : List Event) :
    dirAfter d (.rd w :: es) = dirAfter .inn es := rfl
@[simp] theorem dirAfter_delay (d : Dir) (t : BitVec 32) (es : List Event) :
    dirAfter d (.delay t :: es) = dirAfter d es := rfl
@[simp] theorem dirAfter_pin (d : Dir) (rb : Bool) (es : List Event) :
    dirAfter d (.pin rb :: es) = dirAfter d es := rfl

theorem busTrace_append (d : Dir) (as bs : List Event) :
    busTrace d (as ++ bs) = busTrace d as ++ busTrace (dirAfter d as) bs := by
  induction as generalizing d with
  | nil => rfl
  | cons a as ih => simp [busTrace, dirAfter, ih]

theorem dirAfter_append (d : Dir) (as bs : List Event) :
    dirAfter d (as ++ bs) = dirAfter (dirAfter d as) bs := by
  induction as generalizing d with
  | nil => rfl
  | cons a as ih => simp [dirAfter, ih]

theorem Observed.refl (s : State) : Observed s s [] 0 := by simp [Observed, busTrace, dirAfter]

theorem Observed.trans {s t u : State} {es fs : List Event} {m n : Nat} (h : Observed s t es m)
    (g : Observed t u fs n) : Observed s u (es ++ fs) (m + n) := by
  obtain ⟨h1, h2, h3, h4⟩ := h
  obtain ⟨g1, g2, g3, g4⟩ := g
  refine ⟨?_, ?_, ?_, ?_⟩
  · rw [g1, h1, h2, busTrace_append, List.append_assoc]
  · rw [g2, h2, dirAfter_append]
  · rw [g3, h3, List.drop_drop]
  · rw [g4, h4, Nat.add_assoc]

/-! ### What a run of cycles leaves alone -/

/-- t is s after the cycles es, answered by the next `used` answers: what every run of bus and timer
micro-operations leaves alone. -/
structure Span (s t : State) (es : List Event) (used : Nat) : Prop where
  obs : Observed s t es used
  cfg : t.cfg = s.cfg
  bulk : t.bulk = s.bulk
  regs : t.regs = s.regs
  ids : t.ids = s.ids
  st : t.st = { s.st with lastSr := t.st.lastSr }
  resume : t.seq.resume = s.seq.resume
  cur : t.seq.cur = s.seq.cur
  inputs : t.env.inputs = s.env.inputs
  reads : t.env.reads = s.env.reads

/-- Beside that, only pins and timer have changed. -/
structure Quiet (s t : State) : Prop where
  bufA : t.bufA = s.bufA
  bufC : t.bufC = s.bufC
  frees : t.env.frees = s.env.frees
  lastSr : t.st.lastSr = s.st.lastSr
  sr : t.seq.sr = s.seq.sr
  ready : t.seq.obs = s.seq.obs
  tmp : t.seq.tmp = s.seq.tmp
  wcnt : t.seq.wcnt = s.seq.wcnt

theorem Span.refl (s : State) : Span s s [] 0 := ⟨Observed.refl s, rfl, rfl, rfl, rfl, rfl, rfl, rfl, rfl, rfl⟩

theorem Quiet.refl (s : State) : Quiet s s := ⟨rfl, rfl, rfl, rfl, rfl, rfl, rfl, rfl⟩

theorem Span.trans {s t u : State} {es fs : List Event} {m n : Nat} (h : Span s t es m)
    (g : Span t u fs n) : Span s u (es ++ fs) (m + n) where
  obs := h.obs.trans g.obs
  cfg := g.cfg.trans h.cfg
  bulk := g.bulk.trans h.bulk
  regs := g.regs.trans h.regs
  ids := g.ids.trans h.ids
  st := by rw [g.st, h.st]
  resume := g.resume.trans h.resume
  cur := g.cur.trans h.cur
  inputs := g.inputs.trans h.inputs
  reads := g.reads.trans h.reads

theorem Quiet.trans {s t u : State} (h : Quiet s t) (g : Quiet t u) : Quiet s u :=
  ⟨g.bufA.trans h.bufA, g.bufC.trans h.bufC, g.frees.trans h.frees, g.lastSr.trans h.lastSr,
   g.sr.trans h.sr, g.ready.trans h.ready, g.tmp.trans h.tmp, g.wcnt.trans h.wcnt⟩

theorem answer_after {s t : State} {es : List Event} {m : Nat} (h : Span s t es m) (n : Nat) :
    answer t n = answer s (m + n) := by
  simp [answer, h.cfg, h.obs.2.2.1, h.obs.2.2.2, List.getElem?_drop, Nat.add_assoc]

theorem answerByte_after {s t : State} {es : List Event} {m : Nat} (h : Span s t es m) (n : Nat) :
    answerByte t n = answerByte s (m + n) := by simp [answerByte, answer_after h]

theorem readyAt_after {s t : State} {es : List Event} {m : Nat} (h : Span s t es m) (n : Nat) :
    readyAt t n = readyAt s (m + n) := by
  simp [readyAt, answerByte_after h, h.cfg, pinAnswer, answer_after h]

theorem statusEvents_after {s t : State} {es : List Event} {m : Nat} (h : Span s t es m) (n : Nat) :
    statusEvents t n = statusEvents s (m + n) := by simp [statusEvents, answer_after h]

theorem sampleEvents_after {s t : State} {es : List Event} {m : Nat} (h : Span s t es m) (n : Nat) :
    sampleEvents t n = sampleEvents s (m + n) := by
  simp [sampleEvents, statusEvents_after h, h.cfg, pinAnswer, answer_after h]

theorem pollEvents_after {s t : State} {es : List Event} {m : Nat} (h : Span s t es m) (b k : Nat) :
    pollEvents t b k = pollEvents s (m + b) k := by
  simp [pollEvents, sampleEvents_after h, Nat.add_assoc]

theorem readEvents_after {s t : State} {es : List Event} {m : Nat} (h : Span s t es m) (b n : Nat) :
    readEvents t b n = readEvents s (m + b) n := by
  simp [readEvents, answer_after h, Nat.add_assoc]

theorem readyAfter_after {s t : State} {es : List Event} {m : Nat} (h : Span s t es m) (b j : Nat) :
    ReadyAfter t b j ↔ ReadyAfter s (m + b) j := by
  simp [ReadyAfter, readyAt_after h, h.cfg, Nat.add_assoc]

theorem neverReady_after {s t : State} {es : List Event} {m : Nat} (h : Span s t es m) (b : Nat) :
    NeverReady t b ↔ NeverReady s (m + b) := by
  simp [NeverReady, readyAt_after h, h.cfg, Nat.add_assoc]

end Sys2Proof.Machine
end

