-- ==== Sys2Proof/Laws/Phases.lean ====
section
/-! SUPPORT. Pieces of a sequence: how many micro-operations each makes, which cycles it puts on the trace,
and what it changes; and how pieces compose. -/

namespace Sys2Proof.Machine

/-! ### Pieces -/

/-- The micro-operations kk bring s to t and nothing else happens, in at most N micro-operations. -/
def Piece (N : Nat) (kk : List Micro) (s t : State) : Prop :=
  ∀ op k, ∃ n, n ≤ N ∧ Reach n (atK op (kk ++ k) s) (atK op k t)

/-- The micro-operations kk bring s to t and end the operation there with result r. -/
def Stops (N : Nat) (kk : List Micro) (s t : State) (r : Result) : Prop :=
  ∀ op k, ∃ n, n ≤ N ∧ Reach n (atK op (kk ++ k) s) (endOp r t)

theorem Piece.nil (s : State) : Piece 0 [] s s := fun _ _ => ⟨0, le_rfl, reach_refl _⟩

theorem Piece.append {N M : Nat} {k1 k2 : List Micro} {s t u : State} (h : Piece N k1 s t)
    (g : Piece M k2 t u) : Piece (N + M) (k1 ++ k2) s u := fun op k => by
  obtain ⟨n, hn, h1⟩ := h op (k2 ++ k)
  obtain ⟨m, hm, g1⟩ := g op k
  exact ⟨n + m, by omega, by rw [List.append_assoc]; exact h1.trans g1⟩

theorem Piece.act (a : Act) (s : State) : Piece 1 [.act a] s (applyAct a s) := fun op k =>
  ⟨1, le_rfl, reach_act op a k s⟩

theorem Piece.append_stops {N M : Nat} {k1 k2 : List Micro} {s t u : State} {r : Result}
    (h : Piece N k1 s t) (g : Stops M k2 t u r) : Stops (N + M) (k1 ++ k2) s u r := fun op k => by
  obtain ⟨n, hn, h1⟩ := h op (k2 ++ k)
  obtain ⟨m, hm, g1⟩ := g op k
  exact ⟨n + m, by omega, by rw [List.append_assoc]; exact h1.trans g1⟩

theorem Stops.early {N : Nat} {k1 : List Micro} {s t : State} {r : Result} (h : Stops N k1 s t r)
    (k2 : List Micro) : Stops N (k1 ++ k2) s t r := fun op k => by
  rw [List.append_assoc]; exact h op (k2 ++ k)

theorem Piece.raise_ready {s : State} (r : Result) (h : s.seq.obs = true) :
    Piece 1 [.raiseUnlessReady r] s s := fun _ _ => ⟨1, le_rfl, reach_raiseUnlessReady h⟩

theorem Stops.raise {s : State} (r : Result) (h : s.seq.obs = false) :
    Stops 1 [.raiseUnlessReady r] s s r := fun _ _ => ⟨1, le_rfl, reach_raise h⟩

theorem Piece.raise_passed {s : State} (r : Result) (h : statusFailed s.seq.sr = false) :
    Piece 1 [.raiseIfFailed r] s s := fun _ _ => ⟨1, le_rfl, reach_raiseIfFailed h⟩

theorem Stops.failed {s : State} (r : Result) (h : statusFailed s.seq.sr = true) :
    Stops 1 [.raiseIfFailed r] s s r := fun _ _ => ⟨1, le_rfl, reach_fail h⟩

/-- The piece kk makes the cycles es, answered by the next `used` answers. -/
structure Does (N : Nat) (kk : List Micro) (s t : State) (es : List Event) (used : Nat) : Prop where
  piece : Piece N kk s t
  span : Span s t es used

theorem Does.nil (s : State) : Does 0 [] s s [] 0 := ⟨Piece.nil s, Span.refl s⟩

theorem Does.append {N M a b : Nat} {k1 k2 : List Micro} {s t u : State} {es fs : List Event}
    (h : Does N k1 s t es a) (g : Does M k2 t u fs b) : Does (N + M) (k1 ++ k2) s u (es ++ fs) (a + b) :=
  ⟨h.piece.append g.piece, h.span.trans g.span⟩

/-- The buffers, the counter of free values and wcnt are as they were. -/
structure Still (s t : State) : Prop where
  bufA : t.bufA = s.bufA
  bufC : t.bufC = s.bufC
  frees : t.env.frees = s.env.frees
  wcnt : t.seq.wcnt = s.seq.wcnt

theorem Still.refl (s : State) : Still s s := ⟨rfl, rfl, rfl, rfl⟩

theorem Still.trans {s t u : State} (h : Still s t) (g : Still t u) : Still s u :=
  ⟨g.bufA.trans h.bufA, g.bufC.trans h.bufC, g.frees.trans h.frees, g.wcnt.trans h.wcnt⟩

theorem Quiet.still {s t : State} (h : Quiet s t) : Still s t := ⟨h.bufA, h.bufC, h.frees, h.wcnt⟩

/-! ### Single cycles -/

theorem does_cmd (c : Byte) (s : State) :
    ∃ t, Does 2 (seqCmd c) s t [.cmd c] 0 ∧ Quiet s t := by
  refine ⟨cmdCycle c (setDir .out s), ⟨(Piece.act _ s).append (Piece.act _ _), ?_⟩, ?_⟩
  · constructor <;> simp [Observed]
  · constructor <;> simp

theorem does_addr (b : Byte) (s : State) :
    ∃ t, Does 2 [.act (.setDir .out), .act (.addr b)] s t [.addr b] 0 ∧ Quiet s t := by
  refine ⟨addrCycle b (setDir .out s), ⟨(Piece.act _ s).append (Piece.act _ _), ?_⟩, ?_⟩
  · constructor <;> simp [Observed]
  · constructor <;> simp

theorem does_writeByte (b : Byte) (s : State) :
    ∃ t, Does 2 [.act (.setDir .out), .act (.wrByte b)] s t [.wr (b.setWidth 16)] 0 ∧ Quiet s t := by
  refine ⟨writeCycle (b.setWidth 16) (setDir .out s), ⟨(Piece.act _ s).append (Piece.act _ _), ?_⟩, ?_⟩
  · constructor <;> simp [Observed]
  · constructor <;> simp

theorem does_delay (d : BitVec 32) (s : State) :
    ∃ t, Does 1 [.act (.delay d)] s t [.delay d] 0 ∧ Quiet s t := by
  refine ⟨delayFor d s, ⟨Piece.act _ s, ?_⟩, ?_⟩
  · constructor <;> simp [Observed]
  · constructor <;> simp

/-! ### Groups of cycles -/

theorem does_addrs (bs : List Byte) (s : State) :
    ∃ t, Does (2 * bs.length) (seqAddrs bs) s t (addrEvents bs) 0 ∧ Quiet s t := by
  induction bs generalizing s with
  | nil => exact ⟨s, Does.nil s, Quiet.refl s⟩
  | cons b bs ih =>
    obtain ⟨t, h1, h2⟩ := does_addr b s
    obtain ⟨u, g1, g2⟩ := ih t
    have e := h1.append g1
    rw [show 2 + 2 * bs.length = 2 * (b :: bs).length by simp; omega] at e
    exact ⟨u, e, h2.trans g2⟩

theorem does_writeBytes (bs : List Byte) (s : State) :
    ∃ t, Does (2 * bs.length) (seqWriteBytes bs) s t (bs.map fun b => .wr (b.setWidth 16)) 0
      ∧ Quiet s t := by
  induction bs generalizing s with
  | nil => exact ⟨s, Does.nil s, Quiet.refl s⟩
  | cons b bs ih =>
    obtain ⟨t, h1, h2⟩ := does_writeByte b s
    obtain ⟨u, g1, g2⟩ := ih t
    have e := h1.append g1
    rw [show 2 + 2 * bs.length = 2 * (b :: bs).length by simp; omega] at e
    exact ⟨u, e, h2.trans g2⟩

theorem readEvents_succ (s : State) (b n : Nat) :
    readEvents s b (n + 1) = [.rd (answer s b)] ++ readEvents s (b + 1) n := by
  simp [readEvents, List.range_succ_eq_map, List.map_map, Function.comp_def, Nat.add_comm,
    Nat.add_left_comm]

/-- Every read of the run steps wcnt; the words land in the words wcnt, wcnt + 1, ... of buffer A. -/
theorem does_rdBufA (n : Nat) (s : State) (hw : s.seq.wcnt.toNat + n ≤ s.cfg.bufWords)
    (hb : s.cfg.bufWords ≤ 65536) :
    ∃ t, Does (2 * n) (seqRun .inn .rdBufA n) s t (readEvents s 0 n) n
      ∧ (∀ i < n, cellGet (s.seq.wcnt.toNat + i) t.bufA = some (answer s i))
      ∧ (∀ i, i < s.seq.wcnt.toNat ∨ s.seq.wcnt.toNat + n ≤ i → cellGet i t.bufA = cellGet i s.bufA)
      ∧ t.bufC = s.bufC ∧ t.env.frees = s.env.frees ∧ t.st.lastSr = s.st.lastSr := by
  induction n generalizing s with
  | zero => exact ⟨s, Does.nil s, by simp, by simp, rfl, rfl, rfl⟩
  | succ n ih =>
    let t := readBufACycle (setDir .inn s)
    have h2 : Span s t [.rd (answer s 0)] 1 := by constructor <;> simp [t, Observed]
    have h1 : Does 2 [.act (.setDir .inn), .act .rdBufA] s t [.rd (answer s 0)] 1 :=
      ⟨(Piece.act _ s).append (Piece.act _ _), h2⟩
    have hc : t.seq.wcnt = s.seq.wcnt + 1 := by simp [t]
    have hn : t.seq.wcnt.toNat = s.seq.wcnt.toNat + 1 := by
      rw [hc, BitVec.toNat_add]; simp; omega
    have hA : t.bufA = cellPut s.seq.wcnt.toNat (answer s 0) s.bufA := by
      have hi : (setDir .inn s).seq.wcnt.toNat < (setDir .inn s).cfg.bufWords := by simp; omega
      simp only [t, readBufACycle_bufA, if_pos hi]
      simp [answer]
    obtain ⟨u, g1, g3, g4, g5, g6, g7⟩ := ih t (by rw [h2.cfg]; omega) (by rw [h2.cfg]; exact hb)
    refine ⟨u, ?_, ?_, ?_, g5.trans (by simp [t]), g6.trans (by simp [t]), g7.trans (by simp [t])⟩
    · have e := h1.append g1
      rw [readEvents_after h2, ← readEvents_succ, Nat.add_comm 1 n,
        show 2 + 2 * n = 2 * (n + 1) by omega] at e
      exact e
    · intro i hi
      cases i with
      | zero =>
        rw [g4 _ (Or.inl (by omega)), hA]
        exact cellGet_cellPut_same _ _ _
      | succ i =>
        have := g3 i (by omega)
        rw [hn, answer_after h2] at this
        rw [show s.seq.wcnt.toNat + (i + 1) = s.seq.wcnt.toNat + 1 + i by omega, this,
          Nat.add_comm 1 i]
    · intro i hi
      rw [g4 i (by omega), hA]
      exact cellGet_cellPut_other (by omega) _ _

theorem does_rdBufC (n : Nat) (s : State) (hw : s.seq.wcnt.toNat + n ≤ s.cfg.bufWords)
    (hb : s.cfg.bufWords ≤ 65536) :
    ∃ t, Does (2 * n) (seqRun .inn .rdBufC n) s t (readEvents s 0 n) n
      ∧ (∀ i < n, cellGet (s.seq.wcnt.toNat + i) t.bufC = some (answer s i))
      ∧ (∀ i, i < s.seq.wcnt.toNat ∨ s.seq.wcnt.toNat + n ≤ i → cellGet i t.bufC = cellGet i s.bufC)
      ∧ t.bufA = s.bufA ∧ t.env.frees = s.env.frees ∧ t.st.lastSr = s.st.lastSr := by
  induction n generalizing s with
  | zero => exact ⟨s, Does.nil s, by simp, by simp, rfl, rfl, rfl⟩
  | succ n ih =>
    let t := readBufCCycle (setDir .inn s)
    have h2 : Span s t [.rd (answer s 0)] 1 := by constructor <;> simp [t, Observed]
    have h1 : Does 2 [.act (.setDir .inn), .act .rdBufC] s t [.rd (answer s 0)] 1 :=
      ⟨(Piece.act _ s).append (Piece.act _ _), h2⟩
    have hc : t.seq.wcnt = s.seq.wcnt + 1 := by simp [t]
    have hn : t.seq.wcnt.toNat = s.seq.wcnt.toNat + 1 := by
      rw [hc, BitVec.toNat_add]; simp; omega
    have hC : t.bufC = cellPut s.seq.wcnt.toNat (answer s 0) s.bufC := by
      have hi : (setDir .inn s).seq.wcnt.toNat < (setDir .inn s).cfg.bufWords := by simp; omega
      simp only [t, readBufCCycle_bufC, if_pos hi]
      simp [answer]
    obtain ⟨u, g1, g3, g4, g5, g6, g7⟩ := ih t (by rw [h2.cfg]; omega) (by rw [h2.cfg]; exact hb)
    refine ⟨u, ?_, ?_, ?_, g5.trans (by simp [t]), g6.trans (by simp [t]), g7.trans (by simp [t])⟩
    · have e := h1.append g1
      rw [readEvents_after h2, ← readEvents_succ, Nat.add_comm 1 n,
        show 2 + 2 * n = 2 * (n + 1) by omega] at e
      exact e
    · intro i hi
      cases i with
      | zero =>
        rw [g4 _ (Or.inl (by omega)), hC]
        exact cellGet_cellPut_same _ _ _
      | succ i =>
        have := g3 i (by omega)
        rw [hn, answer_after h2] at this
        rw [show s.seq.wcnt.toNat + (i + 1) = s.seq.wcnt.toNat + 1 + i by omega, this,
          Nat.add_comm 1 i]
    · intro i hi
      rw [g4 i (by omega), hC]
      exact cellGet_cellPut_other (by omega) _ _

theorem does_wrBuf (n : Nat) (s : State) (hw : s.seq.wcnt.toNat + n ≤ 131071) :
    ∃ t, Does (2 * n) (seqRun .out .wrBuf n) s t
        ((List.range n).map fun i => .wr ((cellGet (s.seq.wcnt.toNat + i) s.bufA).getD
          (busWord s.cfg (Config.freeWordA (s.env.frees + i) (s.seq.wcnt.toNat + i))))) 0
      ∧ t.bufA = s.bufA ∧ t.bufC = s.bufC ∧ t.st.lastSr = s.st.lastSr := by
  induction n generalizing s with
  | zero => exact ⟨s, Does.nil s, rfl, rfl, rfl⟩
  | succ n ih =>
    let t := writeBufCycle (setDir .out s)
    have h2 : Span s t [.wr (memRead s s.seq.wcnt.toNat)] 0 := by constructor <;> simp [t, Observed]
    have h1 : Does 2 [.act (.setDir .out), .act .wrBuf] s t [.wr (memRead s s.seq.wcnt.toNat)] 0 :=
      ⟨(Piece.act _ s).append (Piece.act _ _), h2⟩
    have hc : t.seq.wcnt = s.seq.wcnt + 1 := by simp [t]
    have hn : t.seq.wcnt.toNat = s.seq.wcnt.toNat + 1 := by
      rw [hc, BitVec.toNat_add]; simp; omega
    have hf : t.env.frees = s.env.frees + 1 := by simp [t]
    have hA : t.bufA = s.bufA := by simp [t]
    obtain ⟨u, g1, g3, g4, g5⟩ := ih t (by omega)
    refine ⟨u, ?_, g3.trans (by simp [t]), g4.trans (by simp [t]), g5.trans (by simp [t])⟩
    have e := h1.append g1
    rw [hn, hf, hA, h2.cfg, show 2 + 2 * n = 2 * (n + 1) by omega] at e
    rw [List.range_succ_eq_map, List.map_cons, List.map_map]
    simpa [seqRun, memRead, Function.comp_def, Nat.add_assoc, Nat.add_comm 1] using e

theorem does_readBytes (lo n : Nat) (s : State) (hl : (s.seq.tmp.take lo).length = lo) :
    ∃ t, Does (2 * n) (seqReadBytes lo n) s t (readEvents s 0 n) n ∧ Still s t
      ∧ t.st.lastSr = s.st.lastSr
      ∧ (t.seq.tmp.take (lo + n)) = s.seq.tmp.take lo ++ (List.range n).map fun i => answerByte s i := by
  induction n generalizing s lo with
  | zero => exact ⟨s, Does.nil s, Still.refl s, rfl, by simp⟩
  | succ n ih =>
    let t := readByteCycle lo (setDir .inn s)
    have h2 : Span s t [.rd (answer s 0)] 1 := by constructor <;> simp [t, Observed]
    have h1 : Does 2 [.act (.setDir .inn), .act (.rdByte lo)] s t [.rd (answer s 0)] 1 :=
      ⟨(Piece.act _ s).append (Piece.act _ _), h2⟩
    have htake : t.seq.tmp.take (lo + 1) = s.seq.tmp.take lo ++ [answerByte s 0] := by
      rw [show t.seq.tmp = s.seq.tmp.take lo ++ [answerByte s 0] by simp [t, answerByte],
        List.take_of_length_le]
      rw [List.length_append, hl]; simp
    obtain ⟨u, g1, g2, g3, g4⟩ := ih (lo + 1) t (by rw [htake, List.length_append, hl]; simp)
    refine ⟨u, ?_, ?_, g3.trans (by simp [t]), ?_⟩
    · have e := h1.append g1
      rw [readEvents_after h2, ← readEvents_succ, Nat.add_comm 1 n,
        show 2 + 2 * n = 2 * (n + 1) by omega] at e
      exact e
    · exact Still.trans ⟨by simp [t], by simp [t], by simp [t], by simp [t]⟩ g2
    · rw [show lo + (n + 1) = lo + 1 + n by omega, g4, htake, List.range_succ_eq_map, List.map_cons,
        List.map_map]
      simp [answerByte_after h2, Function.comp_def, Nat.add_comm 1]

/-! ### Status reads, observations and waits -/

theorem does_statusByte (s : State) :
    ∃ t, Does 2 seqReadStatusByte s t [.rd (answer s 0)] 1 ∧ Still s t
      ∧ t.st.lastSr = answerByte s 0 ∧ t.seq.sr = answerByte s 0
      ∧ t.seq.obs = statusReady s.cfg (answerByte s 0) ∧ t.seq.tmrCnt = s.seq.tmrCnt
      ∧ t.seq.tmrThr = s.seq.tmrThr := by
  refine ⟨readStatusCycle (setDir .inn s), ⟨(Piece.act _ s).append (Piece.act _ _), ?_⟩,
    ⟨by simp, by simp, by simp, by simp⟩, by simp [answerByte], by simp [answerByte], by simp [answerByte],
    by simp, by simp⟩
  constructor <;> simp [Observed]

theorem does_readSR (s : State) :
    ∃ t, Does 4 seqReadSR s t (statusEvents s 0) 1 ∧ Still s t
      ∧ t.st.lastSr = answerByte s 0 ∧ t.seq.sr = answerByte s 0
      ∧ t.seq.obs = statusReady s.cfg (answerByte s 0) ∧ t.seq.tmrCnt = s.seq.tmrCnt
      ∧ t.seq.tmrThr = s.seq.tmrThr := by
  let u := cmdCycle 0x70 (setDir .out s)
  have h1 : Does 2 (seqCmd 0x70) s u [.cmd 0x70] 0 := by
    refine ⟨(Piece.act _ s).append (Piece.act _ _), ?_⟩
    constructor <;> simp [u, Observed]
  obtain ⟨t, g1, g2, g3, g4, g5, g6, g7⟩ := does_statusByte u
  rw [answerByte_after h1.span, Nat.zero_add] at g3 g4 g5
  rw [h1.span.cfg] at g5
  have e := h1.append g1
  rw [answer_after h1.span] at e
  exact ⟨t, e, Still.trans ⟨by simp [u], by simp [u], by simp [u], by simp [u]⟩ g2, g3, g4, g5,
    g6.trans (by simp [u]), g7.trans (by simp [u])⟩

theorem does_sample (s : State) :
    ∃ t, Does 4 (seqSampleReady s.cfg) s t (sampleEvents s 0) 1 ∧ Still s t
      ∧ t.st.lastSr = lastSrAt s 0 ∧ t.seq.obs = readyAt s 0 ∧ t.seq.tmrCnt = s.seq.tmrCnt
      ∧ t.seq.tmrThr = s.seq.tmrThr := by
  cases h : s.cfg.rbSource with
  | statusReg =>
    obtain ⟨t, h1, h2, h3, -, h4, h5, h6⟩ := does_readSR s
    refine ⟨t, ?_, h2, ?_, ?_, h5, h6⟩
    · simpa [seqSampleReady, sampleEvents, h] using h1
    · simpa [lastSrAt, h] using h3
    · simpa [readyAt, h] using h4
  | rbPin =>
    refine ⟨samplePin s, ⟨fun op k => ⟨1, by omega, ?_⟩, ?_⟩, ⟨by simp, by simp, by simp, by simp⟩, ?_, ?_,
      by simp, by simp⟩
    · rw [seqSampleReady, h]; exact reach_act op .samplePin k s
    · constructor <;> simp [Observed, sampleEvents, h]
    · simp [lastSrAt, h]
    · simp [readyAt, h]

theorem pollEvents_succ (s : State) (b k : Nat) :
    pollEvents s b (k + 1) = sampleEvents s b ++ pollEvents s (b + 1) k := by
  simp only [pollEvents, List.range_succ_eq_map (n := k), List.flatMap_cons, List.flatMap_map,
    Nat.add_zero]
  congr 2
  funext i
  congr 1
  omega

/-- The loop of WaitReady from an observation on: it ends at the first ready observation, or after the
observation at which the counter stands at the threshold (R153). -/
theorem does_poll (j : Nat) (s : State) (hc : s.seq.tmrCnt.toNat + j ≤ s.seq.tmrThr.toNat)
    (hb : ∀ i < j, readyAt s i = false)
    (he : readyAt s j = true ∨ (readyAt s j = false ∧ s.seq.tmrCnt.toNat + j = s.seq.tmrThr.toNat)) :
    ∃ t, Does (5 * (j + 1)) (seqSampleReady s.cfg ++ [.pollAgain]) s t (pollEvents s 0 (j + 1)) (j + 1)
      ∧ Still s t ∧ t.st.lastSr = lastSrAt s j ∧ t.seq.obs = readyAt s j := by
  induction j generalizing s with
  | zero =>
    obtain ⟨t, h1, h2, h6, h7, h8, h9⟩ := does_sample s
    have g : Piece 1 [.pollAgain] t t := fun op k => by
      have g := reach_tick (moves_atK op (.pollAgain :: k) t)
      have e : tick (atK op (.pollAgain :: k) t) = atK op k t := by
        simp only [tick, sequencerStep, runMicro, setPc_seq_pc, setPc_seq_obs, setPc_seq_tmrCnt,
          setPc_seq_tmrThr, h7, h8, h9]
        rcases he with he | ⟨he, hq⟩
        · simp [he]
        · have : s.seq.tmrCnt = s.seq.tmrThr := BitVec.eq_of_toNat_eq (by omega)
          simp [this]
      rw [e] at g
      exact ⟨1, le_rfl, g⟩
    refine ⟨t, ⟨h1.piece.append g, ?_⟩, h2, h6, h7⟩
    simpa [pollEvents] using h1.span
  | succ j ih =>
    obtain ⟨t, h1, h2, h6, h7, h8, h9⟩ := does_sample s
    have hr := hb 0 (by omega)
    let u : State := { t with seq := { t.seq with tmrCnt := t.seq.tmrCnt + 1 } }
    have hlt : s.seq.tmrCnt.toNat < s.seq.tmrThr.toNat := by omega
    have hne : s.seq.tmrCnt ≠ s.seq.tmrThr := fun e => by rw [e] at hlt; omega
    have hs := h1.span
    have hsu : Span s u (sampleEvents s 0) 1 :=
      ⟨hs.obs, hs.cfg, hs.bulk, hs.regs, hs.ids, hs.st, hs.resume, hs.cur, hs.inputs, hs.reads⟩
    have hcnt : u.seq.tmrCnt.toNat = s.seq.tmrCnt.toNat + 1 := by
      show (t.seq.tmrCnt + 1).toNat = _
      rw [h8, BitVec.toNat_add]
      have := s.seq.tmrThr.isLt
      simp; omega
    have hthr : u.seq.tmrThr = s.seq.tmrThr := h9
    obtain ⟨v, v1, v2, v6, v7⟩ := ih u
      (by rw [hcnt, hthr]; omega)
      (by intro i hi; rw [readyAt_after hsu, Nat.add_comm]; exact hb (i + 1) (by omega))
      (by rw [readyAt_after hsu, hcnt, hthr, Nat.add_comm 1 j]
          rcases he with he | ⟨he, hq⟩
          · exact Or.inl he
          · exact Or.inr ⟨he, by omega⟩)
    refine ⟨v, ⟨fun op k => ?_, ?_⟩, Still.trans (t := u) ⟨h2.bufA, h2.bufC, h2.frees, h2.wcnt⟩ v2, ?_, ?_⟩
    · obtain ⟨n, hn, r1⟩ := h1.piece op (.pollAgain :: k)
      have g : Reach 1 (atK op (.pollAgain :: k) t) (atK op (seqSampleReady u.cfg ++ .pollAgain :: k) u) := by
        have g := reach_tick (moves_atK op (.pollAgain :: k) t)
        have e : tick (atK op (.pollAgain :: k) t)
            = atK op (seqSampleReady u.cfg ++ .pollAgain :: k) u := by
          simp only [tick, sequencerStep, runMicro, setPc_seq_pc, setPc_seq_obs, setPc_seq_tmrCnt,
            setPc_seq_tmrThr, h7, h8, h9, hr]
          simp [hne, u, setPc, h7, h8, h9, hr]
        rwa [e] at g
      obtain ⟨m, hm, r2⟩ := v1.piece op k
      rw [List.append_assoc] at r2 ⊢
      exact ⟨n + 1 + m, by omega, (r1.trans g).trans r2⟩
    · have e := hsu.trans v1.span
      rw [pollEvents_after hsu, Nat.add_zero] at e
      rw [pollEvents_succ, Nat.add_comm (j + 1) 1]
      exact e
    · rw [v6]
      simp only [lastSrAt, hsu.cfg]
      cases hrb : s.cfg.rbSource with
      | statusReg => simp [answerByte_after hsu, Nat.add_comm]
      | rbPin =>
        show u.st.lastSr = _
        have : u.st.lastSr = lastSrAt s 0 := h6
        rw [this]; simp [lastSrAt, hrb]
    · rw [v7, readyAt_after hsu, Nat.add_comm]

/-- The timer load of a ready wait (R153). -/
theorem span_loadTimer (s : State) : Span s (loadTimer s) [] 0 := by constructor <;> simp [Observed]

theorem still_loadTimer (s : State) : Still s (loadTimer s) := ⟨by simp, by simp, rfl, by simp⟩

theorem lastSrAt_loadTimer (s : State) (n : Nat) : lastSrAt (loadTimer s) n = lastSrAt s n := by
  simp only [lastSrAt, answerByte_after (span_loadTimer s), Nat.zero_add]
  cases h : s.cfg.rbSource <;> simp [h]

/-- WaitReady that sees ready first at observation j (R153). -/
theorem does_waitReady (j : Nat) (s : State) (h : ReadyAfter s 0 j) :
    ∃ t, Does (5 * (j + 1) + 1) (seqWaitReady s.cfg) s t (pollEvents s 0 (j + 1)) (j + 1) ∧ Still s t
      ∧ t.st.lastSr = lastSrAt s j ∧ t.seq.obs = true := by
  have hs := span_loadTimer s
  obtain ⟨hj, hb, hr⟩ := h
  simp only [Nat.zero_add] at hb hr
  obtain ⟨t, h1, h2, h6, h7⟩ := does_poll j (loadTimer s)
    (by simpa using hj) (fun i hi => by rw [readyAt_after hs, Nat.zero_add]; exact hb i hi)
    (Or.inl (by rw [readyAt_after hs, Nat.zero_add]; exact hr))
  rw [readyAt_after hs, Nat.zero_add, hr] at h7
  rw [lastSrAt_loadTimer] at h6
  have e := (⟨Piece.act .loadTimer s, hs⟩ : Does 1 _ s (loadTimer s) [] 0).append h1
  rw [pollEvents_after hs, Nat.zero_add, Nat.zero_add, Nat.add_comm 1] at e
  exact ⟨t, e, (still_loadTimer s).trans h2, h6, h7⟩

/-- WaitReady whose THR_FLASH + 1 observations all see busy (R153). -/
theorem does_waitTimeout (s : State) (h : NeverReady s 0) :
    ∃ t, Does (5 * (s.cfg.thrFlash.toNat + 1) + 1) (seqWaitReady s.cfg) s t
        (pollEvents s 0 (s.cfg.thrFlash.toNat + 1)) (s.cfg.thrFlash.toNat + 1) ∧ Still s t
      ∧ t.st.lastSr = lastSrAt s s.cfg.thrFlash.toNat ∧ t.seq.obs = false := by
  have hs := span_loadTimer s
  have hb : ∀ i ≤ s.cfg.thrFlash.toNat, readyAt (loadTimer s) i = false := fun i hi => by
    rw [readyAt_after hs]; exact h i hi
  obtain ⟨t, h1, h2, h6, h7⟩ := does_poll s.cfg.thrFlash.toNat (loadTimer s)
    (by simp) (fun i hi => hb i (by omega)) (Or.inr ⟨hb _ le_rfl, by simp⟩)
  rw [hb _ le_rfl] at h7
  rw [lastSrAt_loadTimer] at h6
  have e := (⟨Piece.act .loadTimer s, hs⟩ : Does 1 _ s (loadTimer s) [] 0).append h1
  rw [pollEvents_after hs, Nat.zero_add, Nat.zero_add, Nat.add_comm 1] at e
  exact ⟨t, e, (still_loadTimer s).trans h2, h6, h7⟩

/-! ### The pieces operations are made of -/

/-- BusyCheck of a device that shows ready (R151). -/
theorem does_busyCheck (s : State) (h : readyAt s 0 = true) :
    ∃ t, Does 5 (seqBusyCheck s.cfg) s t (sampleEvents s 0) 1 ∧ Still s t
      ∧ t.st.lastSr = lastSrAt s 0 := by
  obtain ⟨t, h1, h2, h6, h7, -, -⟩ := does_sample s
  exact ⟨t, ⟨h1.piece.append (Piece.raise_ready _ (h7.trans h)), h1.span⟩, h2, h6⟩

/-- BusyCheck of a device that shows busy (R151, R302). -/
theorem stops_busyCheck (s : State) (h : readyAt s 0 = false) :
    ∃ t, Stops 5 (seqBusyCheck s.cfg) s t .busy ∧ Span s t (sampleEvents s 0) 1 ∧ Still s t
      ∧ t.st.lastSr = lastSrAt s 0 ∧ TimerKept s t := by
  obtain ⟨t, h1, h2, h6, h7, h8⟩ := does_sample s
  exact ⟨t, h1.piece.append_stops (Stops.raise _ (h7.trans h)), h1.span, h2, h6, h8⟩

/-- wcnt <- 0 (R38). -/
theorem does_clearWcnt (s : State) : Does 1 [.act .clearWcnt] s (applyAct .clearWcnt s) [] 0 := by
  refine ⟨Piece.act _ s, ?_⟩
  constructor <;> simp [Observed, applyAct]

/-- ReadWords(n) (R149). -/
theorem does_readWords (n : Nat) (s : State) (hn : n ≤ s.cfg.bufWords) (hb : s.cfg.bufWords ≤ 65536) :
    ∃ t, Does (2 * n + 1) (seqReadWords n) s t (readEvents s 0 n) n
      ∧ (∀ i < n, cellGet i t.bufA = some (answer s i))
      ∧ (∀ i, n ≤ i → cellGet i t.bufA = cellGet i s.bufA) ∧ t.bufC = s.bufC
      ∧ t.env.frees = s.env.frees ∧ t.st.lastSr = s.st.lastSr := by
  let u := applyAct .clearWcnt s
  have hw : u.seq.wcnt.toNat = 0 := rfl
  obtain ⟨t, h2, h3, h4, h5, h6, h7⟩ := does_rdBufA n u (by rw [hw, Nat.zero_add]; exact hn) hb
  rw [hw] at h3 h4
  have e := (does_clearWcnt s).append h2
  rw [readEvents_after (does_clearWcnt s).span, List.nil_append, Nat.zero_add, Nat.zero_add,
    Nat.add_comm 1] at e
  refine ⟨t, e, fun i hi => ?_, fun i hi => h4 i (by omega), h5, h6, h7⟩
  have := h3 i hi
  rwa [Nat.zero_add] at this

/-- ReadWordsC(n) (R149). -/
theorem does_readWordsC (n : Nat) (s : State) (hn : n ≤ s.cfg.bufWords) (hb : s.cfg.bufWords ≤ 65536) :
    ∃ t, Does (2 * n + 1) (seqReadWordsC n) s t (readEvents s 0 n) n
      ∧ (∀ i < n, cellGet i t.bufC = some (answer s i))
      ∧ (∀ i, n ≤ i → cellGet i t.bufC = cellGet i s.bufC) ∧ t.bufA = s.bufA
      ∧ t.env.frees = s.env.frees ∧ t.st.lastSr = s.st.lastSr := by
  let u := applyAct .clearWcnt s
  have hw : u.seq.wcnt.toNat = 0 := rfl
  obtain ⟨t, h2, h3, h4, h5, h6, h7⟩ := does_rdBufC n u (by rw [hw, Nat.zero_add]; exact hn) hb
  rw [hw] at h3 h4
  have e := (does_clearWcnt s).append h2
  rw [readEvents_after (does_clearWcnt s).span, List.nil_append, Nat.zero_add, Nat.zero_add,
    Nat.add_comm 1] at e
  refine ⟨t, e, fun i hi => ?_, fun i hi => h4 i (by omega), h5, h6, h7⟩
  have := h3 i hi
  rwa [Nat.zero_add] at this

/-- WriteWords(n) (R149). -/
theorem does_writeWords (n : Nat) (s : State) (hn : n ≤ 131071) :
    ∃ t, Does (2 * n + 1) (seqWriteWords n) s t (sentEvents s n) 0 ∧ t.bufA = s.bufA
      ∧ t.bufC = s.bufC ∧ t.st.lastSr = s.st.lastSr := by
  let u := applyAct .clearWcnt s
  have hw : u.seq.wcnt.toNat = 0 := rfl
  obtain ⟨t, h2, h3, h4, h5⟩ := does_wrBuf n u (by rw [hw]; omega)
  simp only [hw, Nat.zero_add] at h2
  have e := (does_clearWcnt s).append h2
  rw [List.nil_append, Nat.add_comm 1] at e
  exact ⟨t, e, h3, h4, h5⟩

/-- A fresh status read whose bit 0 is clear (R216). -/
theorem does_statusCheck (r : Result) (s : State) (h : statusFailed (answerByte s 0) = false) :
    ∃ t, Does 5 (seqStatusCheck r) s t (statusEvents s 0) 1 ∧ Still s t
      ∧ t.st.lastSr = answerByte s 0 := by
  obtain ⟨t, h1, h2, h6, h7, -, -, -⟩ := does_readSR s
  exact ⟨t, ⟨h1.piece.append (Piece.raise_passed r (by rw [h7]; exact h)), h1.span⟩, h2, h6⟩

/-- A fresh status read whose bit 0 is set (R216, R304). -/
theorem stops_statusCheck (r : Result) (s : State) (h : statusFailed (answerByte s 0) = true) :
    ∃ t, Stops 5 (seqStatusCheck r) s t r ∧ Span s t (statusEvents s 0) 1 ∧ Still s t
      ∧ t.st.lastSr = answerByte s 0 := by
  obtain ⟨t, h1, h2, h6, h7, -, -, -⟩ := does_readSR s
  exact ⟨t, h1.piece.append_stops (Stops.failed r (by rw [h7]; exact h)), h1.span, h2, h6⟩

end Sys2Proof.Machine
end

