-- ==== Sys2Proof/Laws/Operation.lean ====
section
/-! SUPPORT. A whole operation: from the request to its end, given what its sequence does. -/

namespace Sys2Proof.Machine

theorem drive_budget_le (s : State) : opBudget s.cfg ≤ budget s := by
  unfold budget
  exact Nat.le_mul_of_pos_right _ (by positivity)

theorem advance_undisturbed {s : State} (h : undisturbed s = true) : advance s = drive (budget s) s := by
  unfold undisturbed at h
  unfold advance
  split <;> simp_all

/-- A request made of an idle block runs to t, if that takes no more than the budget. -/
theorem request_reaches {s t : State} {op : Byte} {l : Bool} {body : Config → Cur → List Micro} {n : Nat}
    {x : Session} (hs : Startable s x) (h : Reach n (startOp op l body s) t) (ht : moves t = false)
    (hn : n ≤ budget (startOp op l body s)) : request op l body s = t := by
  have hu : undisturbed (startOp op l body s) = true := hs.2.2.2
  rw [request, hs.1, if_neg Bool.false_ne_true, advance_undisturbed hu]
  exact h.drive_eq hn ht

theorem endOp_host {r : Result} {s : State} (h : s.seq.resume = none) :
    endOp r s = { s with
      pins := { busRest s.pins with ceN := true }
      st := { s.st with result := r, done := true, busy := false }
      seq := { s.seq with pc := .idle } } := by
  simp [endOp, h]

theorem moves_endOp {r : Result} {s : State} (h : s.seq.resume = none) : moves (endOp r s) = false := by
  simp [endOp_host h, moves]

/-- The checks of R310 pass: the sequence proper runs, and ends as it says. -/
theorem request_stops {s t : State} {op : Byte} {l : Bool} {body : Config → Cur → List Micro} {n : Nat}
    {x : Session} {r : Result} (hs : Startable s x)
    (hc : checkRequest s.cfg s.st.session (latchRequest op l s) = none)
    (h : Stops n (body s.cfg (latchRequest op l s)) (startOp op l body s) t r)
    (ht : t.seq.resume = none) (hn : n + 2 ≤ opBudget s.cfg) :
    request op l body s = endOp r t := by
  have h0 : Reach 1 (startOp op l body s)
      (atK op (body s.cfg (latchRequest op l s)) (startOp op l body s)) :=
    reach_check (op := op) (k := body s.cfg (latchRequest op l s)) (s := startOp op l body s) hc
  obtain ⟨m, hm, h1⟩ := h op []
  rw [List.append_nil] at h1
  refine request_reaches hs (h0.trans h1) (moves_endOp ht) ?_
  have := drive_budget_le (startOp op l body s)
  simp only [show (startOp op l body s).cfg = s.cfg from rfl] at this
  omega

/-- The same for a sequence that runs to its end. -/
theorem request_runs {s t : State} {op : Byte} {l : Bool} {body : Config → Cur → List Micro} {n : Nat}
    {x : Session} (hs : Startable s x)
    (hc : checkRequest s.cfg s.st.session (latchRequest op l s) = none)
    (h : Piece n (body s.cfg (latchRequest op l s)) (startOp op l body s) t)
    (ht : t.seq.resume = none) (hn : n + 2 ≤ opBudget s.cfg) :
    request op l body s = endOp .success t := by
  have h0 : Reach 1 (startOp op l body s)
      (atK op (body s.cfg (latchRequest op l s)) (startOp op l body s)) :=
    reach_check (op := op) (k := body s.cfg (latchRequest op l s)) (s := startOp op l body s) hc
  obtain ⟨m, hm, h1⟩ := h op []
  rw [List.append_nil] at h1
  refine request_reaches hs ((h0.trans h1).trans (reach_end op t)) (moves_endOp ht) ?_
  have := drive_budget_le (startOp op l body s)
  simp only [show (startOp op l body s).cfg = s.cfg from rfl] at this
  omega

/-- One of the checks of R310 fails: the operation ends there. -/
theorem request_refused {s : State} {op : Byte} {l : Bool} {body : Config → Cur → List Micro}
    {x : Session} {r : Result} (hs : Startable s x)
    (hc : checkRequest s.cfg s.st.session (latchRequest op l s) = some r) :
    request op l body s = endOp r (startOp op l body s) := by
  refine request_reaches hs (reach_checkFails (op := op) (s := startOp op l body s) hc) ?_ ?_
  · have : (startOp op l body s).seq.resume = none := hs.2.1
    simp [endOp, this, moves]
  · have := drive_budget_le (startOp op l body s)
    have : 1 ≤ opBudget (startOp op l body s).cfg := by unfold opBudget; omega
    omega

/-- How an operation's end stands to its request: t is where the sequence came to, u what it stored. -/
theorem ended_endOp {s t : State} {op : Byte} {l : Bool} {body : Config → Cur → List Micro}
    {es : List Event} {n : Nat} {x : Session} (hs : Startable s x) (r : Result) (y : Session)
    (h : Span (startOp op l body s) t es n) (hC : t.bufC = s.bufC) (lo hi fd : Reg) :
    let u := { t with st := { t.st with session := y }
                      ids := { t.ids with idLo := lo, idHi := hi }
                      regs := { t.regs with fdata := fd } }
    Ended s (endOp r u) op l r y ∧ Observed s (endOp r u) es n
      ∧ (endOp r u).st.lastSr = t.st.lastSr ∧ (endOp r u).bufA = t.bufA
      ∧ (endOp r u).ids = { t.ids with idLo := lo, idHi := hi } ∧ (endOp r u).regs.fdata = fd := by
  intro u
  have hres : u.seq.resume = none := h.resume.trans hs.2.1
  have h1 := h.cfg
  have h2 := h.bulk
  have h3 := h.regs
  have h4 := h.ids
  have h5 := h.st
  have h6 := h.cur
  have h7 := h.inputs
  have h8 := h.reads
  rw [endOp_host hres]
  refine ⟨⟨h1, ?_, ?_, ?_, h2, hC, rfl, hres, h6, rfl, rfl, rfl, rfl, rfl, h7, h8⟩, h.obs, rfl, rfl, rfl, rfl⟩
  · simp [u, h3, startOp]
  · simp only [u]; rw [h5]; simp [startOp]
  · simp [u, h4, startOp]

/-- The same for an operation that stores nothing. -/
theorem endedAs_endOp {s t : State} {op : Byte} {l : Bool} {body : Config → Cur → List Micro}
    {es : List Event} {n : Nat} {x : Session} (hs : Startable s x) (r : Result) (y : Session)
    (h : Span (startOp op l body s) t es n) (hA : t.bufA = s.bufA) (hC : t.bufC = s.bufC) :
    EndedAs s (endOp r (setSession y t)) op l r y es n t.st.lastSr := by
  obtain ⟨g1, g2, g3, g4, g5, g6⟩ := ended_endOp hs r y h hC t.ids.idLo t.ids.idHi t.regs.fdata
  have e : ({ t with st := { t.st with session := y }
                     ids := { t.ids with idLo := t.ids.idLo, idHi := t.ids.idHi }
                     regs := { t.regs with fdata := t.regs.fdata } } : State) = setSession y t := rfl
  rw [e] at g1 g2 g3 g4 g5 g6
  refine ⟨g1, g2, ⟨?_, ?_, ?_, g4.trans hA⟩, g3⟩
  · rw [g6, h.regs]; rfl
  · rw [g5, h.ids]; rfl
  · rw [g5, h.ids]; rfl

/-- The same for an operation that leaves the session alone. -/
theorem endedAs_endOp_same {s t : State} {op : Byte} {l : Bool} {body : Config → Cur → List Micro}
    {es : List Event} {n : Nat} {x : Session} (hs : Startable s x) (r : Result)
    (h : Span (startOp op l body s) t es n) (hA : t.bufA = s.bufA) (hC : t.bufC = s.bufC) :
    EndedAs s (endOp r t) op l r x es n t.st.lastSr := by
  have e : setSession x t = t := by
    have : t.st.session = x := by rw [h.st]; exact hs.2.2.1
    subst this; rfl
  have := endedAs_endOp hs r x h hA hC
  rwa [e] at this

/-! ### The checks -/

theorem checkRequest_pass {c : Config} {x : Session} {cur : Cur} (h1 : legalOp c cur.op = true)
    (h2 : sessionAdmits x cur.op = true) (h3 : usesLen cur.op = true → cur.len.toNat ≤ c.bufWords)
    (h4 : cur.op = 0x12#8 → col c cur.addr = 0) : checkRequest c x cur = none := by
  unfold checkRequest
  rw [h1, h2]
  by_cases h5 : usesLen cur.op = true
  · have := h3 h5
    by_cases h6 : cur.op = 0x12#8
    · simp [h4 h6, this]
    · simp [h6, this]
  · by_cases h6 : cur.op = 0x12#8
    · simp [h4 h6, h5]
    · simp [h6, h5]

/-! ### The request seen from its start -/

@[simp] theorem answer_startOp (op : Byte) (l : Bool) (body : Config → Cur → List Micro) (s : State) (n : Nat) :
    answer (startOp op l body s) n = answer s n := rfl
@[simp] theorem answerByte_startOp (op : Byte) (l : Bool) (body : Config → Cur → List Micro) (s : State) (n : Nat) :
    answerByte (startOp op l body s) n = answerByte s n := rfl
@[simp] theorem readyAt_startOp (op : Byte) (l : Bool) (body : Config → Cur → List Micro) (s : State) (n : Nat) :
    readyAt (startOp op l body s) n = readyAt s n := rfl
@[simp] theorem sampleEvents_startOp (op : Byte) (l : Bool) (body : Config → Cur → List Micro) (s : State) (n : Nat) :
    sampleEvents (startOp op l body s) n = sampleEvents s n := rfl
@[simp] theorem statusEvents_startOp (op : Byte) (l : Bool) (body : Config → Cur → List Micro) (s : State) (n : Nat) :
    statusEvents (startOp op l body s) n = statusEvents s n := rfl
@[simp] theorem readEvents_startOp (op : Byte) (l : Bool) (body : Config → Cur → List Micro) (s : State) (b n : Nat) :
    readEvents (startOp op l body s) b n = readEvents s b n := rfl
@[simp] theorem sentEvents_startOp (op : Byte) (l : Bool) (body : Config → Cur → List Micro) (s : State) (n : Nat) :
    sentEvents (startOp op l body s) n = sentEvents s n := rfl
@[simp] theorem programEvents_startOp (op : Byte) (l : Bool) (body : Config → Cur → List Micro) (s : State) (a : Reg) (n : Nat) :
    programEvents (startOp op l body s) a n = programEvents s a n := rfl
@[simp] theorem lastSrAt_startOp (op : Byte) (l : Bool) (body : Config → Cur → List Micro) (s : State) (n : Nat) :
    lastSrAt (startOp op l body s) n = lastSrAt s n := rfl
@[simp] theorem pollEvents_startOp (op : Byte) (l : Bool) (body : Config → Cur → List Micro) (s : State) (b k : Nat) :
    pollEvents (startOp op l body s) b k = pollEvents s b k := rfl

/-- The length an operation latches (R104). -/
theorem latchRequest_len (op : Byte) (l : Bool) (s : State) :
    (latchRequest op l s).len.toNat = s.regs.len.toNat := by
  have := s.regs.len.isLt
  show (s.regs.len.setWidth 17).toNat = _
  rw [BitVec.toNat_setWidth]
  omega

theorem wf_bounds {c : Config} (h : c.wf = true) :
    c.bufWords ≤ 65536 ∧ c.idBytes ≤ 6 ∧ c.rowCycles ≤ 3 ∧ c.retryMax ≤ 6 ∧ c.recWords ≤ c.bufWords := by
  simp [Config.wf] at h; omega

theorem rowGroup_length (c : Config) (a : Reg) : (rowGroup c a).length ≤ 3 := by
  simp only [rowGroup, List.length_append, List.length_cons, List.length_nil]
  split <;> simp

theorem fullGroup_length (c : Config) (a : Reg) : (fullGroup c a).length ≤ 5 := by
  have := rowGroup_length c a
  simp only [fullGroup, colGroup, List.length_append, List.length_cons, List.length_nil]
  omega

/-! ### Ends shared by operations -/

/-- A busy-checking operation of a device that shows busy (R302). -/
theorem request_busy {s : State} {op : Byte} {l : Bool} {body : Config → Cur → List Micro}
    {rest : List Micro} {x : Session} (hs : Startable s x) (hb : readyAt s 0 = false)
    (hc : checkRequest s.cfg s.st.session (latchRequest op l s) = none)
    (hq : body s.cfg (latchRequest op l s) = seqBusyCheck s.cfg ++ rest) :
    EndedBusy s (request op l body s) op l := by
  obtain ⟨t, h1, h2, h3, h4, h5⟩ := stops_busyCheck (startOp op l body s) hb
  have h1' := h1.early rest
  rw [request_stops hs hc (by rw [hq]; exact h1') (h2.resume.trans hs.2.1) (by unfold opBudget; omega)]
  have := endedAs_endOp_same hs .busy h2 h3.bufA h3.bufC
  rw [h4] at this
  unfold EndedBusy
  rw [hs.2.2.1, endOp_host (h2.resume.trans hs.2.1)]
  rw [endOp_host (h2.resume.trans hs.2.1)] at this
  exact ⟨this, h5, h3.wcnt⟩

/-- An operation that one of the checks of R310 ends (R305 to R308). -/
theorem request_refusedAs {s : State} {op : Byte} {l : Bool} {body : Config → Cur → List Micro}
    {x : Session} {r : Result} (hs : Startable s x)
    (hc : checkRequest s.cfg s.st.session (latchRequest op l s) = some r) :
    Refused s (request op l body s) op l r x := by
  have h := endedAs_endOp_same hs r (Span.refl (startOp op l body s)) rfl rfl
  have hr : (startOp op l body s).seq.resume = none := hs.2.1
  rw [request_refused hs hc]
  refine ⟨h, ?_⟩
  rw [endOp_host hr]
  rfl

/-- setSession where the session already is x changes nothing. -/
theorem setSession_same {x : Session} {s : State} (h : s.st.session = x) : setSession x s = s := by
  subst h; rfl

/-- Nothing in a run of cycles reads the session. -/
theorem span_setSession {s t u : State} {es fs : List Event} {m n : Nat} {y : Session}
    (h : Span s t es m) (g : Span (setSession y t) u fs n) :
    Span s (setSession s.st.session u) (es ++ fs) (m + n) := by
  have hst := h.st
  have gst := g.st
  refine ⟨h.obs.trans ⟨g.obs.1, g.obs.2.1, g.obs.2.2.1, g.obs.2.2.2⟩, g.cfg.trans h.cfg,
    g.bulk.trans h.bulk, g.regs.trans h.regs, g.ids.trans h.ids, ?_, g.resume.trans h.resume,
    g.cur.trans h.cur, g.inputs.trans h.inputs, g.reads.trans h.reads⟩
  show { u.st with session := s.st.session } = _
  rw [gst]
  show { t.st with session := s.st.session, lastSr := u.st.lastSr } = _
  rw [hst]
  rfl

/-- The wait and the status check that end a terminal operation (R210, R215, R242, R243, R245): kk comes
before the wait, mid, which may set the session, between the wait and the timeout line. -/
theorem request_waitStatus {s t : State} {op : Byte} {l : Bool} {body : Config → Cur → List Micro}
    {kk mid : List Micro} {x y z : Session} {es : List Event} {b N : Nat} {timeout failed : Result}
    (hs : Startable s x) (hc : checkRequest s.cfg s.st.session (latchRequest op l s) = none)
    (hq : body s.cfg (latchRequest op l s)
      = kk ++ (seqWaitReady s.cfg ++ (mid ++ ([.raiseUnlessReady timeout] ++ seqStatusCheck failed))))
    (hk : Piece N kk (startOp op l body s) t) (hN : N ≤ 131200) (hz : t.st.session = z)
    (hsp : Span (startOp op l body s) (setSession x t) es b) (hA : t.bufA = s.bufA) (hC : t.bufC = s.bufC)
    (hL : s.cfg.rbSource = .rbPin → t.st.lastSr = s.st.lastSr)
    (hmid : ∀ u, u.st.session = z → Piece 1 mid u (setSession y u)) :
    WaitStatusEnds s (request op l body s) op l timeout failed y es b := by
  have hS : ∀ n, answerByte (setSession x t) n = answerByte s (b + n) := fun n =>
    answerByte_after (n := n) hsp
  have hrd : ∀ n, readyAt t n = readyAt s (b + n) := fun n => readyAt_after (n := n) hsp
  have hcfg : t.cfg = s.cfg := hsp.cfg
  have hso : ∀ u : State, ∀ fs n, Span t u fs n →
      Span (startOp op l body s) (setSession x u) (es ++ fs) (b + n) := fun u fs n hu => by
    have h0 : setSession t.st.session (setSession x t) = t := rfl
    have := span_setSession hsp (y := t.st.session) (h0 ▸ hu)
    rwa [show (startOp op l body s).st.session = x from hs.2.2.1] at this
  refine ⟨fun j hj => ?_, fun hj => ?_⟩
  · have hj' : ReadyAfter t 0 j := by
      simpa [ReadyAfter, hrd, hcfg] using hj
    obtain ⟨t1, d1, k1, l1, o1⟩ := does_waitReady j t hj'
    have hz1 : t1.st.session = z := by rw [d1.span.st]; exact hz
    have pm := hmid t1 hz1
    have pr := Piece.raise_ready (s := setSession y t1) timeout o1
    have hab : answerByte (setSession y t1) 0 = answerByte s (b + j + 1) := by
      show answerByte t1 0 = _
      rw [answerByte_after d1.span]
      exact hS (j + 1)
    have hev : pollEvents t 0 (j + 1) = pollEvents s b (j + 1) := pollEvents_after hsp 0 (j + 1)
    have hse : statusEvents (setSession y t1) 0 = statusEvents s (b + j + 1) := by
      show statusEvents t1 0 = _
      rw [statusEvents_after d1.span]
      exact statusEvents_after hsp (j + 1)
    have hjle := hj.1
    have fin : ∀ (t2 : State) (r : Result), request op l body s = endOp r t2 →
        Span (setSession y t1) t2 (statusEvents (setSession y t1) 0) 1 → Still (setSession y t1) t2 →
        t2.st.lastSr = answerByte s (b + j + 1) →
        EndedAs s (request op l body s) op l r y
          (es ++ pollEvents s b (j + 1) ++ statusEvents s (b + j + 1)) (b + j + 2)
          (answerByte s (b + j + 1)) := fun t2 r e hsp2 hst2 hl2 => by
      have h2 := span_setSession d1.span hsp2
      have hy2 : t2.st.session = y := by rw [hsp2.st]; rfl
      have h3 := hso _ _ _ h2
      have h4 := endedAs_endOp hs r y h3 (by exact hst2.bufA.trans (k1.bufA.trans hA))
        (by exact hst2.bufC.trans (k1.bufC.trans hC))
      have e5 : setSession y (setSession x (setSession t.st.session t2)) = t2 := setSession_same hy2
      rw [e5] at h4
      rw [e]
      rw [hev, hse, ← List.append_assoc] at h4
      have : (setSession x (setSession t.st.session t2)).st.lastSr = answerByte s (b + j + 1) := hl2
      rw [this] at h4
      exact h4
    cases hf : statusFailed (answerByte s (b + j + 1)) with
    | false =>
      obtain ⟨t2, d2, k2, l2⟩ := does_statusCheck failed (setSession y t1) (by rw [hab]; exact hf)
      rw [hab] at l2
      refine fin t2 .success ?_ d2.span k2 l2
      have P := hk.append (d1.piece.append (pm.append (pr.append d2.piece)))
      have hr : t2.seq.resume = none := by
        rw [d2.span.resume]; exact d1.span.resume.trans (hsp.resume.trans hs.2.1)
      refine request_runs hs hc ?_ hr (n := N + (5 * (j + 1) + 1 + (1 + (1 + 5)))) (by unfold opBudget; omega)
      rw [hq, ← hcfg]
      exact P
    | true =>
      obtain ⟨t2, d2, sp2, k2, l2⟩ := stops_statusCheck failed (setSession y t1) (by rw [hab]; exact hf)
      rw [hab] at l2
      refine fin t2 failed ?_ sp2 k2 l2
      have P := hk.append_stops (d1.piece.append_stops (pm.append_stops (pr.append_stops d2)))
      have hr : t2.seq.resume = none := by
        rw [sp2.resume]; exact d1.span.resume.trans (hsp.resume.trans hs.2.1)
      refine request_stops hs hc ?_ hr (n := N + (5 * (j + 1) + 1 + (1 + (1 + 5)))) (by unfold opBudget; omega)
      rw [hq, ← hcfg]
      exact P
  · have hj' : NeverReady t 0 := by
      intro i hi
      rw [Nat.zero_add, hrd]; exact hj i (by rwa [hcfg] at hi)
    obtain ⟨t1, d1, k1, l1, o1⟩ := does_waitTimeout t hj'
    have hz1 : t1.st.session = z := by rw [d1.span.st]; exact hz
    have pm := hmid t1 hz1
    have pr := (Stops.raise (s := setSession y t1) timeout o1).early (seqStatusCheck failed)
    have P := hk.append_stops (d1.piece.append_stops (pm.append_stops pr))
    have hr : (setSession y t1).seq.resume = none := d1.span.resume.trans (hsp.resume.trans hs.2.1)
    have e : request op l body s = endOp timeout (setSession y t1) := by
      refine request_stops hs hc ?_ hr (n := N + (5 * (t.cfg.thrFlash.toNat + 1) + 1 + (1 + 1)))
        (by rw [hcfg]; unfold opBudget; omega)
      rw [hq, ← hcfg]
      exact P
    have h3 := hso _ _ _ d1.span
    have h4 := endedAs_endOp hs timeout y h3 (by exact k1.bufA.trans hA) (by exact k1.bufC.trans hC)
    have hev : pollEvents t 0 (t.cfg.thrFlash.toNat + 1) = pollEvents s b (s.cfg.thrFlash.toNat + 1) := by
      rw [hcfg]; exact pollEvents_after hsp 0 _
    have hl : (setSession x t1).st.lastSr = lastSrAt s (b + s.cfg.thrFlash.toNat) := by
      show t1.st.lastSr = _
      rw [l1, hcfg]
      unfold lastSrAt
      rw [hcfg]
      cases hrb : s.cfg.rbSource with
      | statusReg => exact hS _
      | rbPin => exact hL hrb
    rw [hev, hl, hcfg] at h4
    rw [e]
    exact h4

/-- The wait that ends an operation with no status check (R174, R213, R214). -/
theorem request_wait {s t : State} {op : Byte} {l : Bool} {body : Config → Cur → List Micro}
    {kk mid : List Micro} {x y : Session} {es : List Event} {b N : Nat} {timeout : Result}
    (hs : Startable s x) (hc : checkRequest s.cfg s.st.session (latchRequest op l s) = none)
    (hq : body s.cfg (latchRequest op l s)
      = kk ++ (seqWaitReady s.cfg ++ (mid ++ [.raiseUnlessReady timeout])))
    (hk : Does N kk (startOp op l body s) t es b) (hN : N ≤ 131200)
    (hA : t.bufA = s.bufA) (hC : t.bufC = s.bufC)
    (hL : s.cfg.rbSource = .rbPin → t.st.lastSr = s.st.lastSr)
    (hmid : ∀ u, u.st.session = x → Piece 1 mid u (setSession y u)) :
    WaitEnds s (request op l body s) op l timeout y es b := by
  have hsp := hk.span
  have hz : t.st.session = x := by rw [hsp.st]; exact hs.2.2.1
  have hS : ∀ n, answerByte t n = answerByte s (b + n) := fun n => answerByte_after (n := n) hsp
  have hrd : ∀ n, readyAt t n = readyAt s (b + n) := fun n => readyAt_after (n := n) hsp
  have hcfg : t.cfg = s.cfg := hsp.cfg
  have hlast : ∀ n, lastSrAt t n = lastSrAt s (b + n) := fun n => by
    unfold lastSrAt
    rw [hcfg]
    cases hrb : s.cfg.rbSource with
    | statusReg => exact hS n
    | rbPin => exact hL hrb
  refine ⟨fun j hj => ?_, fun hj => ?_⟩
  · have hj' : ReadyAfter t 0 j := by
      simpa [ReadyAfter, hrd, hcfg] using hj
    obtain ⟨t1, d1, k1, l1, o1⟩ := does_waitReady j t hj'
    have hz1 : t1.st.session = x := by rw [d1.span.st]; exact hz
    have P := hk.piece.append (d1.piece.append ((hmid t1 hz1).append
      (Piece.raise_ready (s := setSession y t1) timeout o1)))
    have hjle := hj.1
    have h2 := hsp.trans d1.span
    have e : request op l body s = endOp .success (setSession y t1) := by
      refine request_runs hs hc ?_ (h2.resume.trans hs.2.1) (n := N + (5 * (j + 1) + 1 + (1 + 1)))
        (by unfold opBudget; omega)
      rw [hq, ← hcfg]
      exact P
    have h4 := endedAs_endOp hs .success y h2 (k1.bufA.trans hA) (k1.bufC.trans hC)
    have hev : pollEvents t 0 (j + 1) = pollEvents s b (j + 1) := pollEvents_after hsp 0 (j + 1)
    rw [hev, l1, hlast, ← e] at h4
    exact h4
  · have hj' : NeverReady t 0 := by
      intro i hi
      rw [Nat.zero_add, hrd]; exact hj i (by rwa [hcfg] at hi)
    obtain ⟨t1, d1, k1, l1, o1⟩ := does_waitTimeout t hj'
    have hz1 : t1.st.session = x := by rw [d1.span.st]; exact hz
    have P := hk.piece.append_stops (d1.piece.append_stops ((hmid t1 hz1).append_stops
      (Stops.raise (s := setSession y t1) timeout o1)))
    have h2 := hsp.trans d1.span
    have e : request op l body s = endOp timeout (setSession y t1) := by
      refine request_stops hs hc ?_ (h2.resume.trans hs.2.1)
        (n := N + (5 * (t.cfg.thrFlash.toNat + 1) + 1 + (1 + 1))) (by rw [hcfg]; unfold opBudget; omega)
      rw [hq, ← hcfg]
      exact P
    have h4 := endedAs_endOp hs timeout y h2 (k1.bufA.trans hA) (k1.bufC.trans hC)
    have hev : pollEvents t 0 (t.cfg.thrFlash.toNat + 1) = pollEvents s b (s.cfg.thrFlash.toNat + 1) := by
      rw [hcfg]; exact pollEvents_after hsp 0 _
    rw [hev, l1, hlast, hcfg, ← e] at h4
    exact h4

/-- The session micro-operation. -/
theorem piece_setSession (y : Session) (u : State) : Piece 1 [.act (.setSession y)] u (setSession y u) :=
  Piece.act (.setSession y) u

/-- No session micro-operation. -/
theorem piece_noSession {y : Session} {u : State} (h : u.st.session = y) :
    Piece 1 [] u (setSession y u) := fun _ _ =>
  ⟨0, by omega, by rw [setSession_same h]; exact reach_refl _⟩

/-- An operation whose sequence is a run of cycles, followed by the session's new value. -/
theorem request_done {s t : State} {op : Byte} {l : Bool} {body : Config → Cur → List Micro}
    {kk mid : List Micro} {x y : Session} {es : List Event} {b N : Nat}
    (hs : Startable s x) (hc : checkRequest s.cfg s.st.session (latchRequest op l s) = none)
    (hq : body s.cfg (latchRequest op l s) = kk ++ mid)
    (hk : Does N kk (startOp op l body s) t es b) (hN : N ≤ 131200)
    (hmid : Piece 1 mid t (setSession y t)) (hC : t.bufC = s.bufC) :
    Ended s (request op l body s) op l .success y ∧ Observed s (request op l body s) es b
      ∧ (request op l body s).st.lastSr = t.st.lastSr ∧ (request op l body s).bufA = t.bufA
      ∧ (request op l body s).regs.fdata = s.regs.fdata ∧ (request op l body s).ids = s.ids := by
  have e : request op l body s = endOp .success (setSession y t) := by
    refine request_runs hs hc ?_ (hk.span.resume.trans hs.2.1) (n := N + 1) (by unfold opBudget; omega)
    rw [hq]
    exact hk.piece.append hmid
  obtain ⟨g1, g2, g3, g4, g5, g6⟩ :=
    ended_endOp hs .success y hk.span hC t.ids.idLo t.ids.idHi t.regs.fdata
  rw [e]
  exact ⟨g1, g2, g3, g4, g6.trans (by rw [hk.span.regs]; rfl), g5.trans (by rw [hk.span.ids]; rfl)⟩

/-- The checks pass, seen from the host registers (R310). -/
theorem checkRequest_startable {s : State} {op : Byte} {l : Bool} {x : Session} (hs : Startable s x)
    (h1 : legalOp s.cfg op = true) (h2 : sessionAdmits x op = true)
    (h3 : usesLen op = true → s.regs.len.toNat ≤ s.cfg.bufWords)
    (h4 : op = 0x12#8 → col s.cfg s.regs.addr = 0) :
    checkRequest s.cfg s.st.session (latchRequest op l s) = none := by
  rw [hs.2.2.1]
  exact checkRequest_pass h1 h2 (fun h => by rw [latchRequest_len]; exact h3 h) h4

/-- The data load of a program (R210). -/
theorem does_programLoad (a : Reg) (n : Nat) (s : State) (hn : n ≤ 131071) :
    ∃ t, Does (2 * n + 13) (seqCmd 0x80 ++ (seqAddrs (fullGroup s.cfg a) ++ seqWriteWords n)) s t
        (programEvents s a n) 0
      ∧ t.bufA = s.bufA ∧ t.bufC = s.bufC ∧ t.st.lastSr = s.st.lastSr := by
  obtain ⟨t2, b1, b2⟩ := does_cmd 0x80 s
  obtain ⟨t3, c1, c2⟩ := does_addrs (fullGroup s.cfg a) t2
  obtain ⟨t4, d1, d2, d3, d4⟩ := does_writeWords n t3 hn
  have q := b2.trans c2
  have hse : sentEvents t3 n = sentEvents s n := by
    simp only [sentEvents, sentWord, q.bufA, q.frees, (b1.span.trans c1.span).cfg]
  rw [hse] at d1
  have D := b1.append (c1.append d1)
  have hl := fullGroup_length s.cfg a
  refine ⟨t4, ⟨fun op k => ?_, ?_⟩, d2.trans q.bufA, d3.trans q.bufC, d4.trans q.lastSr⟩
  · obtain ⟨m, hm, h⟩ := D.piece op k
    exact ⟨m, by omega, h⟩
  · simpa [programEvents] using D.span

/-- The data read that ends a read operation (R190, R191, R193): kk comes before it, mid after. -/
theorem request_read {s t : State} {op : Byte} {l : Bool} {body : Config → Cur → List Micro}
    {kk mid : List Micro} {x y : Session} {es : List Event} {b n N : Nat}
    (hs : Startable s x) (hw : s.cfg.wf = true)
    (hc : checkRequest s.cfg s.st.session (latchRequest op l s) = none)
    (hl : s.regs.len.toNat ≤ s.cfg.bufWords) (hn : n = s.regs.len.toNat)
    (hq : body s.cfg (latchRequest op l s) = (kk ++ seqReadWords n) ++ mid)
    (D : Does N kk (startOp op l body s) t es b) (hN : N ≤ 100) (hst : Still (startOp op l body s) t)
    (hmid : ∀ u, u.st.session = x → Piece 1 mid u (setSession y u)) :
    Ended s (request op l body s) op l .success y
      ∧ Observed s (request op l body s) (es ++ readEvents s b n) (b + n)
      ∧ ReadIntoA s (request op l body s) b n ∧ (request op l body s).st.lastSr = t.st.lastSr := by
  have hcfg : t.cfg = s.cfg := D.span.cfg
  have hbnd := wf_bounds hw
  obtain ⟨u, f1, f2, f3, f4, f5, f6⟩ :=
    does_readWords n t (by rw [hcfg, hn]; exact hl) (by rw [hcfg]; exact hbnd.1)
  have F := D.append f1
  obtain ⟨g1, g2, g3, g4, g5, g6⟩ := request_done hs hc hq F (by omega)
    (hmid u (by rw [F.span.st]; exact hs.2.2.1)) (f4.trans hst.bufC)
  have ha : ∀ k, answer t k = answer s (b + k) := fun k => answer_after (n := k) D.span
  have hev : readEvents t 0 n = readEvents s b n := readEvents_after (b := 0) (n := n) D.span
  refine ⟨g1, by rw [hev] at g2; exact g2, ⟨?_, ?_, g5, by rw [g6], by rw [g6]⟩, g3.trans f6⟩
  · intro i hi
    rw [g4, f2 i hi, ha]
  · intro i hi
    rw [g4, f3 i hi, hst.bufA]; rfl

end Sys2Proof.Machine
end

