-- ==== Sys2Proof/Laws/PerInstr.lean ====
section
/-! SUPPORT. Statements about every operation as syntax: its word is the opcode table's row. -/

namespace Sys2Proof.Laws.TableRow

open Sys2Proof

/-- R102 and the opcode table: under the table's mask the word of i is the match of i's row, and decoding
it gives i back. -/
def Statement (i : Instr) : Prop :=
  encode i &&& 0x800000FF#32 = 0x80000000#32 ||| i.opcode.setWidth 32 ∧ decode (encode i) = .ok i

theorem readId (l : Bool) : Statement (.readId l) := by cases l <;> constructor <;> decide
theorem readStatus (l : Bool) : Statement (.readStatus l) := by cases l <;> constructor <;> decide
theorem readStatusEnh (l : Bool) : Statement (.readStatusEnh l) := by cases l <;> constructor <;> decide
theorem getFeature (l : Bool) : Statement (.getFeature l) := by cases l <;> constructor <;> decide
theorem setFeature (l : Bool) : Statement (.setFeature l) := by cases l <;> constructor <;> decide
theorem pageRead (l : Bool) : Statement (.pageRead l) := by cases l <;> constructor <;> decide
theorem randomRead (l : Bool) : Statement (.randomRead l) := by cases l <;> constructor <;> decide
theorem cacheReadBegin (l : Bool) : Statement (.cacheReadBegin l) := by cases l <;> constructor <;> decide
theorem cacheReadCont (l : Bool) : Statement (.cacheReadCont l) := by cases l <;> constructor <;> decide
theorem pageProgram (l : Bool) : Statement (.pageProgram l) := by cases l <;> constructor <;> decide
theorem rprogBegin (l : Bool) : Statement (.rprogBegin l) := by cases l <;> constructor <;> decide
theorem rprogInput (l : Bool) : Statement (.rprogInput l) := by cases l <;> constructor <;> decide
theorem rprogEnd (l : Bool) : Statement (.rprogEnd l) := by cases l <;> constructor <;> decide
theorem cacheProgram (l : Bool) : Statement (.cacheProgram l) := by cases l <;> constructor <;> decide
theorem blockErase (l : Bool) : Statement (.blockErase l) := by cases l <;> constructor <;> decide
theorem tpProgP1 (l : Bool) : Statement (.tpProgP1 l) := by cases l <;> constructor <;> decide
theorem tpProgP2 (l : Bool) : Statement (.tpProgP2 l) := by cases l <;> constructor <;> decide
theorem tpCacheP2 (l : Bool) : Statement (.tpCacheP2 l) := by cases l <;> constructor <;> decide
theorem tpEraseP1 (l : Bool) : Statement (.tpEraseP1 l) := by cases l <;> constructor <;> decide
theorem tpEraseP2 (l : Bool) : Statement (.tpEraseP2 l) := by cases l <;> constructor <;> decide
theorem bulkRead (l : Bool) : Statement (.bulkRead l) := by cases l <;> constructor <;> decide
theorem bulkWrite (l : Bool) : Statement (.bulkWrite l) := by cases l <;> constructor <;> decide
theorem bulkErase (l : Bool) : Statement (.bulkErase l) := by cases l <;> constructor <;> decide

end Sys2Proof.Laws.TableRow
end

