-- ==== Sys2Proof/Laws/Tick.lean ====
section
/-! SUPPORT. What one micro-operation can do, said once, for the proofs about every step. -/

namespace Sys2Proof.Machine

/-- What no plain micro-operation writes: the configuration, the retry controller, the request registers
but FDATA, the captured identity, BUSY, DONE, OVR, RESULT, IDCAP, the latched request and the place in the
pseudocode, and what the outside does next and has read. -/
theorem applyAct_keeps (a : Act) (s : State) : let t := applyAct a s
    t.cfg = s.cfg ∧ t.bulk = s.bulk ∧ t.regs = { s.regs with fdata := t.regs.fdata }
    ∧ t.ids.capLo = s.ids.capLo ∧ t.ids.capHi = s.ids.capHi
    ∧ t.st = { s.st with lastSr := t.st.lastSr, session := t.st.session }
    ∧ t.seq.pc = s.seq.pc ∧ t.seq.resume = s.seq.resume ∧ t.seq.cur = s.seq.cur
    ∧ t.env.inputs = s.env.inputs ∧ t.env.reads = s.env.reads := by
  cases a <;> simp [applyAct, storeId, storeFeature, setSession]

/-- After a plain micro-operation the strobes are where they were or at rest (R114). -/
theorem applyAct_pins (a : Act) (s : State) : let p := (applyAct a s).pins
    (p.cle = s.pins.cle ∧ p.ale = s.pins.ale ∧ p.weN = s.pins.weN ∧ p.reN = s.pins.reN)
    ∨ (p.cle = false ∧ p.ale = false ∧ p.weN = true ∧ p.reN = true) := by
  cases a <;> first
    | exact .inl ⟨rfl, rfl, rfl, rfl⟩
    | exact .inr ⟨rfl, rfl, rfl, rfl⟩

/-- Everything one step of the sequencer can be (R36): a plain micro-operation, the end of the operation,
a move to another place in its pseudocode, one more observation of a ready wait, or the start of a run. -/
theorem sequencer_cases {s : State} {op : Byte} {k : List Micro} (h : s.seq.pc = .exec op k) :
    (∃ a k', tick s = setPc (.exec op k') (applyAct a s))
    ∨ (∃ r, tick s = endOp r s)
    ∨ (∃ k', tick s = setPc (.exec op k') s)
    ∨ (s.seq.tmrCnt ≠ s.seq.tmrThr ∧ ∃ k', tick s = setPc (.exec op k')
        { s with seq := { s.seq with tmrCnt := s.seq.tmrCnt + 1 } })
    ∨ ∃ m, tick s = startBulk m s := by
  rw [tick, h]
  cases k with
  | nil => exact .inr (.inl ⟨_, rfl⟩)
  | cons m k =>
    cases m with
    | act a => exact .inl ⟨a, k, rfl⟩
    | check =>
      simp only [sequencerStep, runMicro]
      split
      · exact .inr (.inl ⟨_, rfl⟩)
      · exact .inr (.inr (.inl ⟨_, rfl⟩))
    | raiseUnlessReady r =>
      simp only [sequencerStep, runMicro]
      split
      · exact .inr (.inr (.inl ⟨_, rfl⟩))
      · exact .inr (.inl ⟨_, rfl⟩)
    | raiseIfFailed r =>
      simp only [sequencerStep, runMicro]
      split
      · exact .inr (.inl ⟨_, rfl⟩)
      · exact .inr (.inr (.inl ⟨_, rfl⟩))
    | pollAgain =>
      simp only [sequencerStep, runMicro]
      split
      · exact .inr (.inr (.inl ⟨_, rfl⟩))
      · rename_i hc
        simp only [Bool.or_eq_true, decide_eq_true_eq, not_or] at hc
        exact .inr (.inr (.inr (.inl ⟨hc.2, _, rfl⟩)))
    | startBulk m => exact .inr (.inr (.inr (.inr ⟨m, rfl⟩)))

/-- The end of a unit stands at the Drain of a read run, at Advance in any other (R263). -/
theorem unitOver_cases (s : State) :
    unitOver s = setPc (.bulk .advance) s
    ∨ unitOver s = setPc (.bulk .drainHold)
        { s with bulk := { s.bulk with phase := .drain, streamDir := false, streamReq := true } } := by
  unfold unitOver
  split
  · exact .inr rfl
  · exact .inl rfl

/-- A failed attempt (R263, R270): another one, or the unit is logged bad and over. -/
theorem attemptFailed_cases (s : State) :
    let u := { s with bulk := { s.bulk with fails := s.bulk.fails + 1 } }
    (attemptFailed s = setPc (.bulk .validate) u ∧ (s.bulk.fails + 1).toNat ≤ s.cfg.retryMax)
    ∨ (attemptFailed s = unitOver (logBad u) ∧ s.cfg.retryMax < (s.bulk.fails + 1).toNat) := by
  unfold attemptFailed
  dsimp only
  split
  · exact .inr ⟨rfl, ‹_›⟩
  · exact .inl ⟨rfl, Nat.le_of_not_lt ‹_›⟩

end Sys2Proof.Machine
end

