-- ==== Sys2Proof/Laws/SeqFrame.lean ====
section
/-! SUPPORT. What an operation leaves alone of the sequencer's own registers, from the form of its sequence. -/

namespace Sys2Proof.Machine

/-- The micro-operation sets the timer (R152, R153). -/
def microTimes (m : Micro) : Bool :=
  match m with
  | .act a =>
    match a with
    | .delay _ | .loadTimer => true
    | .setDir _ | .cmd _ | .addr _ | .wrByte _ | .wrBuf | .rdBufA | .rdBufC | .rdByte _ => false
    | .rdStatus | .samplePin | .clearWcnt | .setSession _ | .storeId | .storeFeature => false
  | .pollAgain => true
  | .check | .raiseUnlessReady _ | .raiseIfFailed _ | .startBulk _ => false

/-- The micro-operation sets wcnt (R38). -/
def microCounts (m : Micro) : Bool :=
  match m with
  | .act a =>
    match a with
    | .clearWcnt | .wrBuf | .rdBufA | .rdBufC => true
    | .setDir _ | .cmd _ | .addr _ | .wrByte _ | .rdByte _ | .delay _ | .loadTimer => false
    | .rdStatus | .samplePin | .setSession _ | .storeId | .storeFeature => false
  | .check | .raiseUnlessReady _ | .raiseIfFailed _ | .pollAgain | .startBulk _ => false

/-- The sequence k starts no bulk run. -/
def plainSequence (k : List Micro) : Prop := ∀ m ∈ k, ∀ md, m ≠ .startBulk md

/-- sr and LAST_SR have been written together or not at all (R39, R50). -/
def SrFrame (s t : State) : Prop :=
  t.seq.sr = t.st.lastSr ∨ t.seq.sr = s.seq.sr ∧ t.st.lastSr = s.st.lastSr

theorem srFrame_step {s t u : State} (h : SrFrame s t)
    (g : u.seq.sr = u.st.lastSr ∨ u.seq.sr = t.seq.sr ∧ u.st.lastSr = t.st.lastSr) : SrFrame s u := by
  rcases g with g | ⟨g1, g2⟩
  · exact .inl g
  · rcases h with h | ⟨h1, h2⟩
    · exact .inl (by rw [g1, g2, h])
    · exact .inr ⟨g1.trans h1, g2.trans h2⟩

theorem applyAct_timer {a : Act} (h : microTimes (.act a) = false) (s : State) :
    TimerKept s (applyAct a s) := by
  cases a <;> simp_all [microTimes, TimerKept, applyAct, storeId, storeFeature, setSession]

theorem applyAct_wcnt {a : Act} (h : microCounts (.act a) = false) (s : State) :
    (applyAct a s).seq.wcnt = s.seq.wcnt := by
  cases a <;> simp_all [microCounts, applyAct, storeId, storeFeature, setSession]

theorem applyAct_sr (a : Act) (s : State) : let t := applyAct a s
    t.seq.sr = t.st.lastSr ∨ t.seq.sr = s.seq.sr ∧ t.st.lastSr = s.st.lastSr := by
  cases a <;> simp [applyAct, storeId, storeFeature, setSession]

/-- Where a host operation is between its start in s and its end: idle, or at micro-operations of which
none sets the timer if `tm` is false, and none wcnt if `wc` is. -/
def OpRun (tm wc : Bool) (s t : State) : Prop :=
  (tm = false → TimerKept s t) ∧ (wc = false → t.seq.wcnt = s.seq.wcnt) ∧ SrFrame s t
  ∧ t.seq.resume = none
  ∧ (t.seq.pc = .idle ∨ ∃ op k, t.seq.pc = .exec op k ∧ plainSequence k
      ∧ (∀ m ∈ k, microTimes m = true → tm = true) ∧ ∀ m ∈ k, microCounts m = true → wc = true)

theorem sampleReady_micros (c : Config) : ∀ m ∈ seqSampleReady c,
    microTimes m = false ∧ microCounts m = false ∧ ∀ md, m ≠ .startBulk md := by
  unfold seqSampleReady
  cases c.rbSource <;> simp [seqReadSR, seqReadStatusByte, seqCmd, microTimes, microCounts]

theorem opRun_endOp {tm wc : Bool} {s t : State} (h : OpRun tm wc s t) (r : Result) :
    OpRun tm wc s (endOp r t) := by
  obtain ⟨h1, h2, h3, h4, -⟩ := h
  rw [endOp_host h4]
  exact ⟨h1, h2, h3, h4, .inl rfl⟩

theorem opRun_tick {tm wc : Bool} {s t : State} (h : OpRun tm wc s t) : OpRun tm wc s (tick t) := by
  have hh := h
  obtain ⟨h1, h2, h3, h4, h5 | ⟨op, k, h5, p, hm, hw⟩⟩ := h
  · rw [tick, h5]; exact hh
  · have sub : ∀ k', (∀ m ∈ k', m ∈ k) → ∀ u : State, TimerKept t u → u.seq.wcnt = t.seq.wcnt →
        (u.seq.sr = u.st.lastSr ∨ u.seq.sr = t.seq.sr ∧ u.st.lastSr = t.st.lastSr) →
        u.seq.resume = none → OpRun tm wc s (setPc (.exec op k') u) := by
      intro k' hk u g1 g2 g3 g4
      exact ⟨fun e => ⟨g1.1.trans (h1 e).1, g1.2.trans (h1 e).2⟩, fun e => g2.trans (h2 e),
        srFrame_step h3 g3, g4,
        .inr ⟨op, k', rfl, fun m i => p m (hk m i), fun m i => hm m (hk m i), fun m i => hw m (hk m i)⟩⟩
    rw [tick, h5]
    cases k with
    | nil => exact opRun_endOp hh _
    | cons m k =>
      have tl : ∀ x ∈ k, x ∈ m :: k := fun _ i => List.mem_cons_of_mem _ i
      cases m with
      | act a =>
        obtain ⟨-, -, -, -, -, -, -, e, -⟩ := applyAct_keeps a t
        refine ⟨fun e' => ?_, fun e' => ?_, srFrame_step h3 (applyAct_sr a t), e.trans h4,
          .inr ⟨op, k, rfl, fun m i => p m (tl m i), fun m i => hm m (tl m i), fun m i => hw m (tl m i)⟩⟩
        · have ht : microTimes (.act a) = false := by
            by_contra hc
            simp [hm _ List.mem_cons_self (by simpa using hc)] at e'
          have := applyAct_timer ht t
          exact ⟨this.1.trans (h1 e').1, this.2.trans (h1 e').2⟩
        · have ht : microCounts (.act a) = false := by
            by_contra hc
            simp [hw _ List.mem_cons_self (by simpa using hc)] at e'
          exact (applyAct_wcnt ht t).trans (h2 e')
      | check =>
        simp only [sequencerStep, runMicro]
        split
        · exact opRun_endOp hh _
        · exact sub k tl t ⟨rfl, rfl⟩ rfl (.inr ⟨rfl, rfl⟩) h4
      | raiseUnlessReady r =>
        simp only [sequencerStep, runMicro]
        split
        · exact sub k tl t ⟨rfl, rfl⟩ rfl (.inr ⟨rfl, rfl⟩) h4
        · exact opRun_endOp hh _
      | raiseIfFailed r =>
        simp only [sequencerStep, runMicro]
        split
        · exact opRun_endOp hh _
        · exact sub k tl t ⟨rfl, rfl⟩ rfl (.inr ⟨rfl, rfl⟩) h4
      | pollAgain =>
        have htm : tm = true := hm _ List.mem_cons_self rfl
        simp only [sequencerStep, runMicro]
        split
        · exact sub k tl t ⟨rfl, rfl⟩ rfl (.inr ⟨rfl, rfl⟩) h4
        · have q := sampleReady_micros t.cfg
          refine ⟨fun e => by simp [htm] at e, h2, h3, h4, .inr ⟨op, _, rfl, ?_, fun _ _ _ => htm, ?_⟩⟩
          · intro m i
            rcases List.mem_append.1 i with i | i
            · exact (q m i).2.2
            · exact p m i
          · intro m i e
            rcases List.mem_append.1 i with i | i
            · simp [(q m i).2.1] at e
            · exact hw m i e
      | startBulk md => exact absurd rfl (p _ List.mem_cons_self md)

theorem opRun_drive {tm wc : Bool} {s : State} (n : Nat) {t : State} (h : OpRun tm wc s t) :
    OpRun tm wc s (drive n t) := by
  induction n generalizing t with
  | zero => exact h
  | succ n ih =>
    unfold drive
    split
    · exact ih (opRun_tick h)
    · exact h

/-- What an operation leaves alone of the sequencer's registers, read off its sequence: the timer if no
micro-operation sets it, wcnt if none does, and sr with LAST_SR. -/
theorem request_seqFrame {s : State} {op : Byte} {l : Bool} {body : Config → Cur → List Micro} {x : Session}
    (hs : Startable s x) (hp : plainSequence (body s.cfg (latchRequest op l s)))
    (ht : usesTimer op = false → ∀ m ∈ body s.cfg (latchRequest op l s), microTimes m = false)
    (hc : usesLen op = false → ∀ m ∈ body s.cfg (latchRequest op l s), microCounts m = false) :
    SeqFrame s (request op l body s) op := by
  have h0 : OpRun (usesTimer op) (usesLen op) s (startOp op l body s) := by
    refine ⟨fun _ => ⟨rfl, rfl⟩, fun _ => rfl, .inr ⟨rfl, rfl⟩, hs.2.1,
      .inr ⟨op, _, rfl, fun m i md => ?_, fun m i e => ?_, fun m i e => ?_⟩⟩
    · rcases List.mem_cons.1 i with rfl | i
      · simp
      · exact hp m i md
    · rcases List.mem_cons.1 i with rfl | i
      · simp [microTimes] at e
      · by_contra hf
        simp [ht (by simpa using hf) m i] at e
    · rcases List.mem_cons.1 i with rfl | i
      · simp [microCounts] at e
      · by_contra hf
        simp [hc (by simpa using hf) m i] at e
  have hu : undisturbed (startOp op l body s) = true := hs.2.2.2
  rw [request, hs.1, if_neg Bool.false_ne_true, advance_undisturbed hu]
  obtain ⟨h1, h2, h3, -⟩ := opRun_drive (budget (startOp op l body s)) h0
  exact ⟨h1, h2, h3⟩

end Sys2Proof.Machine
end

