-- ==== Sys2Proof/Machine/HostProgram.lean ====
section
/-! DEFINITION. The host-program syntax of R132, expanded into inputs. -/

namespace Sys2Proof.Machine

/-- `wr NAME, v`, NAME given by its offset (R21). -/
def wr (off : Byte) (v : Reg) : Input := .access (.write off 4 v)

/-- `rd NAME`. -/
def rd (off : Byte) : Input := .access (.read off 4)

/-- The write of CTRL that requests i (R101). -/
def wrCtrl (i : Instr) : Input := wr 0x00 (encode i)

/-- `ack`. -/
def hostAck : Input := wr 0x40 1

/-- `abort`. -/
def hostAbort : Input := wr 0x40 2

/-- `fill v0, v1, ...`. -/
def hostFill (vs : List Reg) : List Input := wr 0x18 0 :: vs.map (wr 0x1C)

/-- `dump n`. -/
def hostDump (n : Nat) : List Input := wr 0x18 0 :: List.replicate n (rd 0x1C)

/-- The keys of an operation pseudo-instruction. -/
structure HostKeys where
  addr : Option Reg := none
  len : Option Reg := none
  faddr : Option Reg := none
  fdata : Option Reg := none
  start : Option Reg := none
  count : Option Reg := none
deriving DecidableEq, Repr

/-- One key's write, if the key is given. -/
def wrKey (off : Byte) : Option Reg → List Input
  | some v => [wr off v]
  | none => []

/-- `MNEMONIC[.L] k=v ...`: the writes in R132's order, the CTRL write, `waitdone`. -/
def hostOp (i : Instr) (k : HostKeys) : List Input :=
  wrKey 0x04 k.addr ++ wrKey 0x08 k.len ++ wrKey 0x0C k.faddr ++ wrKey 0x10 k.fdata
  ++ wrKey 0x30 k.start ++ wrKey 0x34 k.count ++ [wrCtrl i, .waitDone]

end Sys2Proof.Machine
end

