-- ==== Sys2Proof/Tests/Slice0.lean ====
section
/-! SUPPORT. Tests of single steps against the words and vectors of the spec, and the witnesses of the
hypotheses of the obligations. Expected values are the spec's (95_test_vectors.md and the rules named). -/

namespace Sys2Proof.Machine.Tests

open Sys2Proof Sys2Proof.Machine

-- One theorem after the other: many kernel evaluations waiting at once each hold a thread.
set_option Elab.async false

/-! ### Helpers -/

/-- The block after reset, with the registers f gives, the device answers given, and session x. -/
def at0 (f : HostRegs → HostRegs) (as : List Word) (x : Session := .none) : State :=
  let s := State.reset
  { s with regs := f s.regs, st := { s.st with session := x }, env := { s.env with answers := as } }

/-- Words ws in buffer A from word 0 on. -/
def withA (ws : List Word) (s : State) : State :=
  { s with bufA := (List.range ws.length).zip ws }

/-- The bus left in direction d. -/
def withDir (d : Dir) (s : State) : State := { s with pins := { s.pins with dir := d } }

/-- What a run shows: STATUS and the trace. -/
def seen (o : Host.Outcome State Fault Refusal) : Option (Reg × List Event) :=
  match o with
  | .next t => some (statusWord t, t.env.trace)
  | .fault _ => none
  | .refused _ => none

/-- STATUS and the trace expected, the trace in parts. -/
def shows (status : Reg) (parts : List (List Event)) : Option (Reg × List Event) :=
  some (status, parts.flatten)

/-- A field of the next state. -/
def after {α : Type} (f : State → α) (o : Host.Outcome State Fault Refusal) : Option α :=
  match o with
  | .next t => some (f t)
  | .fault _ => none
  | .refused _ => none

/-- `‹BC›` from dir = IN. -/
def bc : List Event := [.dir .out, .cmd 0x70, .dir .inn, .rd 0x40]

/-- `‹RID›`. -/
def rid : List Event :=
  bc ++ [.dir .out, .cmd 0x90, .addr 0x00, .dir .inn, .rd 0x11, .rd 0x22, .rd 0x33, .rd 0x44, .rd 0x55]

/-- The answers of a ready device to a READ_ID. -/
def ridAnswers : List Word := [0x40, 0x11, 0x22, 0x33, 0x44, 0x55]

/-- The block before a bulk operation of no units, stream_dir as given. -/
def bulkBefore (d : Bool) : State :=
  let s := at0 id ridAnswers
  { s with bulk := { s.bulk with streamDir := d } }

/-- n status reads of a busy device, from dir = OUT. -/
def busyPolls : Nat → List Event
  | 0 => []
  | 1 => [.cmd 0x70, .dir .inn, .rd 0x00]
  | n + 1 => [.cmd 0x70, .dir .inn, .rd 0x00, .dir .out] ++ busyPolls n

/-- A passing status read, from dir = OUT, answered w. -/
def sr (w : Word) : List Event := [.cmd 0x70, .dir .inn, .rd w]

/-- Profile P0 without READ_STATUS_ENH. -/
def p0NoEnh : Config := { Config.p0 with hasEnhStatus := false }

/-- Profile P0 observing R/B# at its pin. -/
def p0Pin : Config := { Config.p0 with rbSource := .rbPin }

/-! ### Decoding: a word of every row, written out from R101 and R102 -/

theorem test_decode_readId : decode 0b10000000000000000000000000000001#32 = .ok (.readId false) := by decide
theorem test_decode_readStatus : decode 0b10000000000000000000000000000010#32 = .ok (.readStatus false) := by
  decide
theorem test_decode_readStatusEnh : decode 0b10000000000000000000000100000011#32
    = .ok (.readStatusEnh true) := by decide
theorem test_decode_getFeature : decode 0b10000000000000000000000000000100#32 = .ok (.getFeature false) := by
  decide
theorem test_decode_setFeature : decode 0b10000000000000000000000000000101#32 = .ok (.setFeature false) := by
  decide
theorem test_decode_pageRead : decode 0b10000000000000000000000000010000#32 = .ok (.pageRead false) := by
  decide
theorem test_decode_randomRead : decode 0b10000000000000000000000000010001#32 = .ok (.randomRead false) := by
  decide
theorem test_decode_cacheReadBegin : decode 0b10000000000000000000000000010010#32
    = .ok (.cacheReadBegin false) := by decide
theorem test_decode_cacheReadCont : decode 0b10000000000000000000000100010011#32
    = .ok (.cacheReadCont true) := by decide
theorem test_decode_pageProgram : decode 0b10000000000000000000000000100000#32
    = .ok (.pageProgram false) := by decide
theorem test_decode_rprogBegin : decode 0b10000000000000000000000000100001#32
    = .ok (.rprogBegin false) := by decide
theorem test_decode_rprogInput : decode 0b10000000000000000000000000100010#32
    = .ok (.rprogInput false) := by decide
theorem test_decode_rprogEnd : decode 0b10000000000000000000000000100011#32 = .ok (.rprogEnd false) := by
  decide
theorem test_decode_cacheProgram : decode 0b10000000000000000000000100100100#32
    = .ok (.cacheProgram true) := by decide
theorem test_decode_blockErase : decode 0b10000000000000000000000000110000#32 = .ok (.blockErase false) := by
  decide
theorem test_decode_tpProgP1 : decode 0b10000000000000000000000001000000#32 = .ok (.tpProgP1 false) := by
  decide
theorem test_decode_tpProgP2 : decode 0b10000000000000000000000001000001#32 = .ok (.tpProgP2 false) := by
  decide
theorem test_decode_tpCacheP2 : decode 0b10000000000000000000000101000010#32 = .ok (.tpCacheP2 true) := by
  decide
theorem test_decode_tpEraseP1 : decode 0b10000000000000000000000001001000#32 = .ok (.tpEraseP1 false) := by
  decide
theorem test_decode_tpEraseP2 : decode 0b10000000000000000000000001001001#32 = .ok (.tpEraseP2 false) := by
  decide
theorem test_decode_bulkRead : decode 0b10000000000000000000000001100000#32 = .ok (.bulkRead false) := by
  decide
theorem test_decode_bulkWrite : decode 0b10000000000000000000000001100001#32 = .ok (.bulkWrite false) := by
  decide
theorem test_decode_bulkErase : decode 0b10000000000000000000000001100010#32 = .ok (.bulkErase false) := by
  decide

/-- R101: "the reserved bits are ignored". -/
theorem test_decode_reserved : decode 0b11111111111111111111111000110000#32 = .ok (.blockErase false) := by
  decide

/-- R103 and V-H5: both ends of every illegal range. -/
theorem test_decode_illegal :
    ∀ op ∈ [0x00#8, 0x06#8, 0x0F#8, 0x14#8, 0x1F#8, 0x25#8, 0x2F#8, 0x31#8, 0x3F#8, 0x43#8, 0x47#8, 0x4A#8,
      0x5F#8, 0x63#8, 0xFF#8], ctrlWordStart (encodeWord op false) = true
      ∧ decode (encodeWord op false) = .error (.illegalOp op) := by decide +kernel

/-! ### Well-formedness -/

/-- R103: READ_STATUS_ENH is no operation when HAS_ENH_STATUS = 0. -/
theorem test_wf_readStatusEnh : (Instr.readStatusEnh false).wellFormed p0NoEnh = false := by decide

theorem test_wf_readId : (Instr.readId true).wellFormed p0NoEnh = true := by decide

/-- R12, R13: P0 is well formed, and each constraint is checked. -/
theorem test_cfg_wf : Config.p0.wf = true ∧ p0Pin.wf = true ∧ p0NoEnh.wf = true
    ∧ Config.wf { Config.p0 with busWidth := 12 } = false ∧ Config.wf { Config.p0 with rowShift := 17 } = false
    ∧ Config.wf { Config.p0 with rowCycles := 4 } = false ∧ Config.wf { Config.p0 with idBytes := 4 } = false
    ∧ Config.wf { Config.p0 with planeBitOnfi := 24 } = false
    ∧ Config.wf { Config.p0 with pagesPerBlock := 48 } = false
    ∧ Config.wf { Config.p0 with bufWords := 4351 } = false
    ∧ Config.wf { Config.p0 with readyBit := 5 } = false ∧ Config.wf { Config.p0 with pollInterval := 0 } = false
    ∧ Config.wf { Config.p0 with retryMax := 7 } = false
    ∧ Config.wf { Config.p0 with badLogDepth := 0 } = false := by decide

/-! ### Addresses and words (3.1) -/

/-- V-AD1. -/
theorem test_fullGroup : fullGroup Config.p0 0x12345678 = [0x78, 0x16, 0xA2, 0x91, 0x00] := by decide

/-- V-PL3, V-PL5. -/
theorem test_paddr : rowGroup Config.p0 (paddr Config.p0 0x00182000 false) = [0x81, 0, 0]
    ∧ rowGroup Config.p0 (paddr Config.p0 0x00182000 true) = [0xC1, 0, 0]
    ∧ rowGroup { Config.p0 with planeMode := .traditional, planeBitTrad := 0 }
        (paddr { Config.p0 with planeMode := .traditional, planeBitTrad := 0 } 0x00100000 true)
      = [0x81, 0, 0] := by decide

/-- R265's table: pa(0xFFFFFFFF), ba(10) and ba(0x2000). -/
theorem test_unitAddr : pageUnitAddr Config.p0 0xFFFFFFFF = 0xFFFFE000
    ∧ blockUnitAddr Config.p0 10 = 0x00500000 ∧ blockUnitAddr Config.p0 0x2000 = 0 := by decide

/-- V-H1: CFG of profile P0. -/
theorem test_cfgWord : cfgWord Config.p0 = 0x000D1A5E := by decide

/-! ### The host window (3.3) -/

/-- V-H2: START = 0 starts nothing and CTRL reads 0x110. -/
theorem test_ctrl_noStart : after (fun t => ((hostRead 0x00 t).1, statusWord t, t.env.trace))
    (step (State.reset.withFetchWord 32 0x00000110)) = some (0x110, 0, []) := by decide +kernel

/-- V-H4: OP 0x00. -/
theorem test_illegal_request : seen (step (State.reset.withFetchWord 32 0x80000000))
    = shows 0x00000062 [[]] := by decide +kernel

/-- V-H7: the write at 4351 lands, the one at 4352 is dropped, the read past the end gives 0. -/
theorem test_bufData : let t := hostWrite 0x1C 0xCD (hostWrite 0x1C 0xAB (hostWrite 0x18 4351 State.reset))
    t.bufA = [(4351, 0xAB)] ∧ (hostRead 0x18 t).1 = 4353 ∧ (hostRead 0x1C t).1 = 0
    ∧ (hostRead 0x1C t).2.regs.bufPtr = 4354 := by decide +kernel

/-- V-H10: bits above BUS_WIDTH are ignored. -/
theorem test_bufData_width :
    (hostRead 0x1C (hostWrite 0x18 0 (hostWrite 0x1C 0x1FF State.reset))).1 = 0xFF := by decide +kernel

/-! ### One step per operation (3.4 to 3.8) -/

/-- The step takes the placed word as READ_ID; V-H3: L is ignored and kept. -/
theorem test_step_readId : after (fun t => (statusWord t, t.env.trace, (hostRead 0x00 t).1))
    (step ((at0 id ridAnswers).withFetchWord 32 0x80000101)) = some (0x00004002, rid, 0x101) := by
  decide +kernel

/-- V-ID1. -/
theorem test_readId : after (fun t => (t.ids.idLo, t.ids.idHi)) (exec (.readId false) (at0 id ridAnswers))
    = some (0x44332211, 0x55) := by decide +kernel

/-- V-ST2. -/
theorem test_readStatus : seen (exec (.readStatus false) (at0 id [0x41]))
    = shows 0x00004102 [[.dir .out, .cmd 0x70, .dir .inn, .rd 0x41]] := by decide +kernel

/-- V-SE1. -/
theorem test_readStatusEnh :
    seen (exec (.readStatusEnh false) (at0 (fun r => { r with addr := 0x4000 }) [0xC0]))
    = shows 0x0000C002 [[.dir .out, .cmd 0x78, .addr 2, .addr 0, .addr 0, .dir .inn, .rd 0xC0]] := by
  decide +kernel

/-- V-GF2. -/
theorem test_getFeature :
    let o := exec (.getFeature false) (at0 (fun r => { r with faddr := 0x90 }) [0x40, 1, 2, 3, 4])
    seen o = shows 0x00004002 [bc, [.dir .out, .cmd 0xEE, .addr 0x90, .delay 1, .dir .inn, .rd 1, .rd 2,
        .rd 3, .rd 4]]
    ∧ after (·.regs.fdata) o = some 0x04030201 := by decide +kernel

/-- V-SF3: the fail bit is not read. -/
theorem test_setFeature :
    seen (exec (.setFeature false)
      (at0 (fun r => { r with faddr := 1, fdata := 0x44332211 }) [0x40, 0x41]))
    = shows 0x00004102 [bc, [.dir .out, .cmd 0xEF, .addr 1, .wr 0x11, .wr 0x22, .wr 0x33, .wr 0x44],
        sr 0x41] := by decide +kernel

/-- V-SF2: never ready. -/
theorem test_setFeature_timeout :
    seen (exec (.setFeature false) (at0 (fun r => { r with faddr := 1, fdata := 5 }) [0x40, 0, 0, 0, 0]))
    = shows 0x00000022 [bc, [.dir .out, .cmd 0xEF, .addr 1, .wr 5, .wr 0, .wr 0, .wr 0],
        busyPolls 4] := by decide +kernel

/-- V-PR1. -/
theorem test_pageRead :
    let o := exec (.pageRead false) (at0 (fun r => { r with addr := 0x2000, len := 3 })
      [0x40, 0xAA, 0xBB, 0xCC])
    seen o = shows 0x00004002 [bc, [.dir .out, .cmd 0x00, .addr 0, .addr 0, .addr 1, .addr 0, .addr 0,
        .cmd 0x30, .delay 25, .dir .inn, .rd 0xAA, .rd 0xBB, .rd 0xCC]]
    ∧ after (·.bufA) o = some [(0, 0xAA), (1, 0xBB), (2, 0xCC)] := by decide +kernel

/-- V-PR6: busy. -/
theorem test_pageRead_busy :
    seen (exec (.pageRead false) (at0 (fun r => { r with addr := 0x2000, len := 3 }) [0]))
    = shows 0x00000012 [[.dir .out, .cmd 0x70, .dir .inn, .rd 0x00]] := by decide +kernel

/-- V-RR1. -/
theorem test_randomRead : seen (exec (.randomRead false)
      (at0 (fun r => { r with addr := 0x2010, len := 2 }) [0x5A, 0xA5]))
    = shows 0x00000002 [[.dir .out, .cmd 0x05, .addr 0x10, .addr 0, .cmd 0xE0, .dir .inn, .rd 0x5A,
        .rd 0xA5]] := by decide +kernel

/-- V-CB1. -/
theorem test_cacheReadBegin :
    seen (exec (.cacheReadBegin false) (at0 (fun r => { r with addr := 0x4000 }) [0x40]))
    = shows 0x00024002 [bc, [.dir .out, .cmd 0x00, .addr 0, .addr 0, .addr 2, .addr 0, .addr 0,
        .cmd 0x30, .delay 25]] := by decide +kernel

/-- V-CB5: the session check comes before the alignment check. -/
theorem test_cacheReadBegin_session :
    seen (exec (.cacheReadBegin false) (at0 (fun r => { r with addr := 0x4001 }) [] .cread))
    = shows 0x00020062 [[]] := by decide +kernel

/-- V-CC2. -/
theorem test_cacheReadCont :
    seen (exec (.cacheReadCont true) (at0 (fun r => { r with len := 2 }) [3, 4] .cread))
    = shows 0x00000002 [[.dir .out, .cmd 0x3F, .delay 5, .dir .inn, .rd 3, .rd 4]] := by decide +kernel

/-- V-CC5: L = 0 and no word. -/
theorem test_cacheReadCont_more : seen (exec (.cacheReadCont false) (at0 id [] .cread))
    = shows 0x00020002 [[.dir .out, .cmd 0x31, .delay 5]] := by decide +kernel

/-- V-PP2: fail injected. -/
theorem test_pageProgram : seen (exec (.pageProgram false)
      (withA [0xDE, 0xAD] (at0 (fun r => { r with addr := 0x2000, len := 2 }) [0x40, 0x41, 0x41])))
    = shows 0x00004132 [bc, [.dir .out, .cmd 0x80, .addr 0, .addr 0, .addr 1, .addr 0, .addr 0,
        .wr 0xDE, .wr 0xAD, .cmd 0x10], sr 0x41, [.dir .out], sr 0x41] := by decide +kernel

/-- V-PP3: never ready, no fresh status read. -/
theorem test_pageProgram_timeout : seen (exec (.pageProgram false)
      (withA [0xDE] (at0 (fun r => { r with addr := 0x2000, len := 1 }) [0x40, 0, 0, 0, 0])))
    = shows 0x00000022 [bc, [.dir .out, .cmd 0x80, .addr 0, .addr 0, .addr 1, .addr 0, .addr 0,
        .wr 0xDE, .cmd 0x10], busyPolls 4] := by decide +kernel

/-- V-RP1. -/
theorem test_rprogBegin : seen (exec (.rprogBegin false)
      (withA [0x11] (at0 (fun r => { r with addr := 0x6000, len := 1 }) [0x40])))
    = shows 0x00014002 [bc, [.dir .out, .cmd 0x80, .addr 0, .addr 0, .addr 3, .addr 0, .addr 0,
        .wr 0x11]] := by decide +kernel

/-- V-RP2. -/
theorem test_rprogInput : seen (exec (.rprogInput false)
      (withDir .out (withA [0x22] (at0 (fun r => { r with addr := 0x100, len := 1 }) [] .rprog))))
    = shows 0x00010002 [[.cmd 0x85, .addr 0, .addr 1, .wr 0x22]] := by decide +kernel

/-- V-RP4, V-RP6. -/
theorem test_rprogEnd : seen (exec (.rprogEnd false) (withDir .out (at0 id [0, 0x40] .rprog)))
      = shows 0x00004002 [[.cmd 0x10, .cmd 0x70, .dir .inn, .rd 0, .dir .out], sr 0x40]
    ∧ seen (exec (.rprogEnd false) (withDir .out (at0 id [0, 0, 0, 0] .rprog)))
      = shows 0x00000032 [[.cmd 0x10], busyPolls 4] := by decide +kernel

/-- V-CP1. -/
theorem test_cacheProgram : seen (exec (.cacheProgram false)
      (withA [0x33] (at0 (fun r => { r with addr := 0x8000, len := 1 }) [0x40, 0x40])))
    = shows 0x00004002 [bc, [.dir .out, .cmd 0x80, .addr 0, .addr 0, .addr 4, .addr 0, .addr 0,
        .wr 0x33, .cmd 0x15], sr 0x40] := by decide +kernel

/-- V-CP3: L = 1, the fail bit is not read. -/
theorem test_cacheProgram_last : seen (exec (.cacheProgram true)
      (withA [0x33] (at0 (fun r => { r with addr := 0xA000, len := 1 }) [0x40, 0x41])))
    = shows 0x00004102 [bc, [.dir .out, .cmd 0x80, .addr 0, .addr 0, .addr 5, .addr 0, .addr 0,
        .wr 0x33, .cmd 0x10], sr 0x41] := by decide +kernel

/-- V-BE2. -/
theorem test_blockErase :
    seen (exec (.blockErase false) (at0 (fun r => { r with addr := 0x80000 }) [0x40, 0x41, 0x41]))
    = shows 0x00004142 [bc, [.dir .out, .cmd 0x60, .addr 0x40, .addr 0, .addr 0, .cmd 0xD0], sr 0x41,
        [.dir .out], sr 0x41] := by decide +kernel

/-- V-TP5. -/
theorem test_tpProgP1 : seen (exec (.tpProgP1 false)
      (withA [0x44] (at0 (fun r => { r with addr := 0x182000, len := 1 }) [0x40])))
    = shows 0x00034002 [bc, [.dir .out, .cmd 0x80, .addr 0, .addr 0, .addr 0x81, .addr 0, .addr 0,
        .wr 0x44, .cmd 0x11, .delay 1]] := by decide +kernel

/-- V-TP2. -/
theorem test_tpProgP2 : seen (exec (.tpProgP2 false) (withDir .out
      (withA [0x55] (at0 (fun r => { r with addr := 0x100000, len := 1 }) [0x40, 0x40] .plane1Prog))))
    = shows 0x00004002 [[.cmd 0x80, .addr 0, .addr 0, .addr 0xC0, .addr 0, .addr 0, .wr 0x55,
        .cmd 0x10], sr 0x40, [.dir .out], sr 0x40] := by decide +kernel

/-- V-TP8. -/
theorem test_tpCacheP2 : seen (exec (.tpCacheP2 false) (withDir .out
      (withA [0x66] (at0 (fun r => { r with addr := 0x100000, len := 1 }) [] .plane1Prog))))
    = shows 0x00000002 [[.cmd 0x80, .addr 0, .addr 0, .addr 0xC0, .addr 0, .addr 0, .wr 0x66,
        .cmd 0x15, .delay 3]] := by decide +kernel

/-- V-TP10: ProgramFailed, not OperationTimeout. -/
theorem test_tpCacheP2_timeout : after (fun t => t.st.result) (exec (.tpCacheP2 true) (withDir .out
      (withA [0x66] (at0 (fun r => { r with addr := 0x100000, len := 1 }) [0, 0, 0, 0] .plane1Prog))))
    = some .programFailed := by decide +kernel

/-- V-TE1. -/
theorem test_tpEraseP1 :
    seen (exec (.tpEraseP1 false) (at0 (fun r => { r with addr := 0x100000 }) [0x40]))
    = shows 0x00044002 [bc, [.dir .out, .cmd 0x60, .addr 0x80, .addr 0, .addr 0, .cmd 0xD1,
        .delay 1]] := by decide +kernel

/-- V-TE2. -/
theorem test_tpEraseP2 : seen (exec (.tpEraseP2 false)
      (withDir .out (at0 (fun r => { r with addr := 0x100000 }) [0x40, 0x41] .plane1Erase)))
    = shows 0x00004142 [[.cmd 0x60, .addr 0xC0, .addr 0, .addr 0, .cmd 0xD0], sr 0x40, [.dir .out],
        sr 0x41] := by decide +kernel

/-- V-BK2: a mismatch ends the run. -/
theorem test_bulkRead :
    after (fun t => (statusWord t, t.ids.idHi, t.bulk.active)) (exec (.bulkRead false)
      (at0 (fun r => { r with bulkCount := 3 }) [0x40, 0x11, 0x22, 0x33, 0x44, 0x56]))
    = some (0x00004052, 0x56, false) := by decide +kernel

/-- V-BK8, up to `waitstream`: the Fill of the first unit. -/
theorem test_bulkWrite : after (fun t => (bulkInfoWord t, t.env.trace)) (exec (.bulkWrite false)
      (at0 (fun r => { r with bulkCount := 2 }) ridAnswers))
    = some (0x000B0000, rid) := by decide +kernel

/-- V-BK8, from there: abort, then the run to its end. -/
theorem test_bulkWrite_abort :
    after (fun t => after (fun u => (bulkInfoWord u, statusWord u))
        (step (hostWrite 0x40 2 t)))
      (exec (.bulkWrite false) (at0 (fun r => { r with bulkCount := 2 }) ridAnswers))
    = some (some (0x00060000, 0x00084002)) := by decide +kernel

/-- V-BK1. -/
theorem test_bulkErase : after (fun t => (bulkInfoWord t, statusWord t, t.bulk.unit))
    (exec (.bulkErase false) (at0 (fun r => { r with bulkStart := 5 }) ridAnswers))
    = some (0x00006400, 0x00084002, 5) := by decide +kernel

/-- R42: the start of a run resets stream_dir, here 1 from an earlier BULK_WRITE. -/
theorem test_bulkErase_streamDir :
    let s := bulkBefore true
    s.bulk.streamDir = true ∧ after (·.bulk.streamDir) (exec (.bulkErase false) s) = some false := by
  decide +kernel

/-- V-BK9: one failed erase of block 2, then a pass; FAILS 1, BAD_COUNT 0. -/
theorem test_bulkErase_retry : after (fun t => (t.bulk.fails, t.bulk.badCount, bulkInfoWord t))
    (exec (.bulkErase false) (at0 (fun r => { r with bulkStart := 2, bulkCount := 1 })
      (List.flatten [ridAnswers, ridAnswers, [0x40, 0x41, 0x41, 0x41, 0x11, 0x22, 0x33, 0x44, 0x55],
        [0x41, 0x40, 0x40]])))
    = some (1, 0, 0x00006401) := by decide +kernel

/-! ### The hypotheses of the obligations can be met -/

/-- The block busy with a bulk write that waits in its Fill, or not: `busy` and `req` as given. -/
def busyState (req : Bool) : State :=
  let s := State.reset
  { s with st := { s.st with busy := true }, bulk := { s.bulk with streamReq := req, active := true } }

/-- The retry controller at p of mode m, with one unit to do, after result r. -/
def bulkAt (p : RetryPt) (m : BulkMode) (r : Result) (fails : BitVec 3) : State :=
  let s := State.reset
  { s with
    st := { s.st with busy := true }
    seq := { s.seq with pc := .bulk p }
    bulk := { s.bulk with mode := m, lastResult := r, fails := fails, left := 1, count := 1, active := true } }

/-- The outside's next input is x. -/
def withInput (x : Input) (s : State) : State := setInputs [x] s

/-- DecodeEncode. -/
theorem test_hyps_decodeEncode : (Instr.readStatusEnh true).wellFormed Config.p0 = true
    ∧ decode (encode (.readStatusEnh true)) = .ok (.readStatusEnh true)
    ∧ decode 0xFFFFFF03 = .ok (.readStatusEnh true) := by decide +kernel

/-- StepRunsDecoded: the placed word is a host write of CTRL that decodes, and the step runs it. -/
theorem test_hyps_stepRunsDecoded : State.reset.cfg.wf = true
    ∧ (State.reset.withFetchWord 32 0x80000002).env.inputs = [.access (.write 0x00 4 0x80000002)]
    ∧ decode 0x80000002 = .ok (.readStatus false) := by decide +kernel

/-- StepHostAccess: a read, a CTRL write with START = 0, no input, a pause, and a polling loop that goes on
and one that is left. -/
theorem test_hyps_stepHostAccess : State.reset.cfg.wf = true
    ∧ after (·.env.reads) (step (withInput (.access (.read 0x28 4)) State.reset)) = some [0]
    ∧ after (·.regs.ctrlOp) (step (withInput (.access (.write 0x00 4 0x110)) State.reset)) = some 0x10
    ∧ ctrlWordStart 0x110 = false ∧ State.reset.env.inputs = []
    ∧ (withInput (.pause 1) State.reset).env.inputs = [.pause 1]
    ∧ after (·.env.inputs) (step (withInput .waitDone State.reset)) = some [.waitDone]
    ∧ after (·.env.inputs) (step (withInput .waitStream (busyState true))) = some [] := by decide +kernel

/-- StepRefuses: a configuration out of range, a narrow access and one at no multiple of 4. -/
theorem test_hyps_stepRefuses : (resetOf { Config.p0 with busWidth := 32 }).cfg.wf = false
    ∧ accessAligned (.write 0x1C 2 0) = false ∧ accessAligned (.read 0x02 4) = false := by decide

/-- RstStep. -/
theorem test_hyps_rstStep : let s := withInput .rst (busyState true)
    s.cfg.wf = true ∧ s.env.inputs = [.rst] ∧ after (·.st.busy) (step s) = some false := by decide +kernel

/-- BusyRequestRefused and AccessWhileBusy, with and without a stream request; an offset of the last write
clause and one of the last read clause. -/
theorem test_hyps_busy : (busyState true).st.busy = true ∧ (busyState false).st.busy = true
    ∧ (busyState true).bulk.streamReq = true ∧ (busyState false).bulk.streamReq = false
    ∧ hostWrite 0x48 1 (busyState false) = busyState false
    ∧ hostRead 0x40 (busyState false) = (0, busyState false) := by decide +kernel

/-- BufData: the access accepted in either way, the pointer at the last word and one past it. -/
theorem test_hyps_bufData : State.reset.st.busy = false ∧ (busyState true).bulk.streamReq = true
    ∧ (hostWrite 0x18 4351 State.reset).regs.bufPtr.toNat < State.reset.cfg.bufWords
    ∧ State.reset.cfg.bufWords ≤ (hostWrite 0x18 4352 State.reset).regs.bufPtr.toNat := by decide +kernel

/-- CfgRead, AddressBytes, PlaneAddress, UnitAddresses: well-formed configurations of both plane modes. -/
theorem test_hyps_cfg : Config.p0.wf = true
    ∧ Config.wf { Config.p0 with planeMode := .traditional, rowCycles := 2, rowShift := 16 } = true := by
  decide

/-- AddressBytes: two addresses that differ in a row bit that is not sent (R80). -/
theorem test_hyps_addressBytes : let c := { Config.p0 with rowCycles := 2 }
    c.wf = true ∧ (0x00002000#32).toNat % 2 ^ (c.rowShift + 8 * c.rowCycles)
      = (0x20002000#32).toNat % 2 ^ (c.rowShift + 8 * c.rowCycles)
    ∧ fullGroup c 0x00002000 = [0, 0, 1, 0] ∧ fullGroup c 0x20002000 = [0, 0, 1, 0] := by decide

/-- HostRegisters: the block idle, an unlisted offset at the boundary. -/
theorem test_hyps_hostRegisters : State.reset.st.busy = false ∧ 0x55 ≤ (0x55#8).toNat
    ∧ (hostRead 0x58 State.reset).1 = 0 ∧ (hostRead 0x54 State.reset).1 = 0 := by decide +kernel

/-- StreamWrite: an acknowledgement and an abort that count, and (V-H13) two that do not. -/
theorem test_hyps_streamWrite : (hostWrite 0x40 3 (busyState true)).bulk.streamReq = false
    ∧ (hostWrite 0x40 3 (busyState true)).bulk.abortReq = true
    ∧ hostWrite 0x40 3 State.reset = State.reset := by decide +kernel

/-- BadLogRead: a full entry and none. -/
theorem test_hyps_badLogRead : State.reset.bulk.badLog = []
    ∧ (logBad State.reset).bulk.badLog = [0] ∧ (hostRead 0x48 (logBad State.reset)).1 = 0 := by decide +kernel

/-- BusCycles: both directions before a switch and of a cycle. -/
theorem test_hyps_busCycles : State.reset.pins.dir ≠ .out ∧ (withDir .out State.reset).pins.dir = .out
    ∧ State.reset.pins.dir = .inn := by decide

/-- A state in which an operation of session NONE starts, on a page-aligned address, the device ready and
then answering b. -/
def startState (as : List Word) : State := at0 (fun r => { r with addr := 0x4000, len := 2 }) as

/-- ReadId, ReadStatus, ReadStatusEnh, GetFeature, PageRead, RandomRead, CacheReadBegin, RprogBegin,
TpProgP1, TpEraseP1: ready and busy. -/
theorem test_hyps_start : (startState [0x40]).cfg.wf = true ∧ Startable (startState [0x40]) .none
    ∧ (startState [0x40]).regs.len.toNat ≤ (startState [0x40]).cfg.bufWords
    ∧ col (startState [0x40]).cfg (startState [0x40]).regs.addr = 0
    ∧ (startState [0x40]).cfg.hasEnhStatus = true
    ∧ readyAt (startState [0x40]) 0 = true ∧ readyAt (startState [0x00]) 0 = false
    ∧ Startable (startState [0x00]) .none := by
  unfold Startable; decide +kernel

/-- The same at the R/B# pin, and without READ_STATUS_ENH. -/
theorem test_hyps_start_config : p0Pin.wf = true ∧ Startable (resetOf p0Pin) .none
    ∧ Startable (resetOf p0NoEnh) .none ∧ (resetOf p0NoEnh).cfg.hasEnhStatus = false
    ∧ readyAt { resetOf p0Pin with env := { (resetOf p0Pin).env with answers := [1] } } 0 = true := by
  unfold Startable; decide +kernel

/-- SetFeature, PageProgram, CacheProgram, BlockErase: ready at the first and at the last observation of
the wait, never ready, and a final status that passes or fails. -/
theorem test_hyps_wait : ReadyAfter (startState [0x40, 0x40, 0x40]) 1 0
    ∧ ReadyAfter (startState [0x40, 0, 0, 0, 0x40, 0x41]) 1 3 ∧ NeverReady (startState [0x40, 0, 0, 0, 0]) 1
    ∧ readyAt (startState [0x40, 0, 0, 0, 0]) 0 = true
    ∧ statusFailed (answerByte (startState [0x40, 0x40, 0x40]) 2) = false
    ∧ statusFailed (answerByte (startState [0x40, 0, 0, 0, 0x40, 0x41]) 5) = true := by
  unfold ReadyAfter NeverReady; decide +kernel

/-- The same of an operation in session x. -/
def sessionState (x : Session) (as : List Word) : State := at0 (fun r => { r with len := 2 }) as x

/-- RprogInput, RprogEnd, CacheReadCont, TpProgP2, TpCacheP2, TpEraseP2. -/
theorem test_hyps_session : ∀ x ∈ [Session.rprog, .cread, .plane1Prog, .plane1Erase],
    (sessionState x []).cfg.wf = true ∧ Startable (sessionState x []) x
    ∧ (sessionState x []).regs.len.toNat ≤ (sessionState x []).cfg.bufWords
    ∧ ReadyAfter (sessionState x [0x40, 0x40]) 0 0 ∧ ReadyAfter (sessionState x [0, 0, 0, 0x40, 0x41]) 0 3
    ∧ NeverReady (sessionState x [0, 0, 0, 0]) 0 := by
  unfold Startable ReadyAfter NeverReady; decide +kernel

/-- SessionRefuses (V-TP7, V-CC7). -/
theorem test_hyps_sessionRefuses : admittedIn .none (.tpProgP2 false) = false
    ∧ admittedIn .cread (.readStatus false) = false ∧ admittedIn .rprog (.rprogBegin true) = false
    ∧ seen (exec (.readStatus false) (sessionState .cread [])) = shows 0x00020062 [] := by decide +kernel

/-- IllegalRequest. -/
theorem test_hyps_illegalRequest :
    let s := State.reset.withFetchWord 32 0x800001FF
    s.cfg.wf = true ∧ s.env.inputs = [.access (.write 0x00 4 0x800001FF)]
    ∧ Startable (setInputs [] s) .none ∧ decode 0x800001FF = .error (.illegalOp (ctrlWordOp 0x800001FF)) := by
  unfold Startable; decide +kernel

/-- LenRefused (V-PR4, V-CC4): one word more than the buffer. -/
theorem test_hyps_lenRefused : let s := at0 (fun r => { r with len := 4353 }) [] .cread
    Startable s .cread ∧ admittedIn .cread (.cacheReadCont false) = true
    ∧ lenOperation (.cacheReadCont false) = true ∧ s.cfg.bufWords < s.regs.len.toNat
    ∧ seen (exec (.cacheReadCont false) s) = shows 0x00020072 [] := by
  unfold Startable; decide +kernel

/-- AddrRefused (S1). -/
theorem test_hyps_addrRefused : let s := at0 (fun r => { r with addr := 0x4001 }) []
    s.cfg.wf = true ∧ Startable s .none ∧ col s.cfg s.regs.addr ≠ 0
    ∧ seen (exec (.cacheReadBegin false) s) = shows 0x00000082 [] := by
  unfold Startable; decide +kernel

/-- The state before a bulk operation of n units, the device giving the answers as. -/
def bulkState (n : Reg) (as : List Word) : State := at0 (fun r => { r with bulkCount := n }) as

/-- BulkEmptyRun, BulkWriteFills. -/
theorem test_hyps_capture : bulkModeOf (.bulkErase false) = some .erase ∧ (bulkState 0 ridAnswers).cfg.wf = true
    ∧ Startable (bulkState 0 ridAnswers) .none ∧ (bulkState 0 ridAnswers).regs.bulkCount = 0
    ∧ readyAt (bulkState 0 ridAnswers) 0 = true ∧ IdentityOk (bulkState 0 ridAnswers) 1
    ∧ Startable (bulkState 2 ridAnswers) .none ∧ (bulkState 2 ridAnswers).regs.bulkCount ≠ 0 := by
  unfold Startable IdentityOk; decide +kernel

/-- CaptureFails: a busy device (V-BK3), and another identity (V-BK2). -/
theorem test_hyps_captureFails : Startable (bulkState 1 [0]) .none ∧ readyAt (bulkState 1 [0]) 0 = false
    ∧ readyAt (bulkState 1 [0x40, 0x11, 0x22, 0x33, 0x44, 0x56]) 0 = true
    ∧ ¬ IdentityOk (bulkState 1 [0x40, 0x11, 0x22, 0x33, 0x44, 0x56]) 1 := by
  unfold Startable IdentityOk; decide +kernel

/-- BulkReadDrains, with READ_VERIFY = 0 (V-BK12). -/
theorem test_hyps_bulkReadDrains :
    let c := { Config.p0 with readVerify := false }
    let s := { bulkState 1 (ridAnswers ++ ridAnswers ++ [0x40]) with cfg := c }
    s.cfg.wf = true ∧ Startable s .none ∧ s.regs.bulkCount ≠ 0 ∧ s.cfg.readVerify = false
    ∧ readyAt s 0 = true ∧ IdentityOk s 1 ∧ readyAt s (1 + s.cfg.idBytes) = true
    ∧ IdentityOk s (2 + s.cfg.idBytes) ∧ readyAt s (2 + 2 * s.cfg.idBytes) = true := by
  unfold Startable IdentityOk; decide +kernel

/-- BulkReadDrains, with READ_VERIFY = 1 (V-BK11, its second attempt): the second read gives the same words. -/
theorem test_hyps_bulkReadDrains_verify :
    let c := { Config.p0 with pageDataWords := 2, spareWords := 0 }
    let s := { bulkState 1 (List.flatten [ridAnswers, ridAnswers, [0x40, 0xAA, 0xBB, 0x40, 0xAA, 0xBB]])
      with cfg := c }
    let b := 2 + 2 * s.cfg.idBytes
    let n := s.cfg.recWords
    s.cfg.wf = true ∧ Startable s .none ∧ s.cfg.readVerify = true ∧ readyAt s b = true
    ∧ readyAt s (b + 1 + n) = true
    ∧ (∀ i < n, answer s (b + 1 + n + 1 + i) = answer s (b + 1 + i))
    ∧ after (fun t => (t.bufA, t.bufC)) (exec (.bulkRead false) s)
      = some ([(0, 0xAA), (1, 0xBB)], [(0, 0xAA), (1, 0xBB)]) := by
  unfold Startable; decide +kernel

/-- BulkEraseOne. -/
theorem test_hyps_bulkEraseOne : let s := bulkState 1 (ridAnswers ++ ridAnswers ++ [0x40, 0, 0x40, 0x40])
    s.cfg.wf = true ∧ Startable s .none ∧ s.regs.bulkCount = 1 ∧ readyAt s 0 = true ∧ IdentityOk s 1
    ∧ readyAt s (1 + s.cfg.idBytes) = true ∧ IdentityOk s (2 + s.cfg.idBytes)
    ∧ readyAt s (2 + 2 * s.cfg.idBytes) = true ∧ ReadyAfter s (3 + 2 * s.cfg.idBytes) 1
    ∧ statusFailed (answerByte s (4 + 2 * s.cfg.idBytes + 1)) = false := by
  unfold Startable IdentityOk ReadyAfter; decide +kernel

/-- IdMismatch: the identity kept (0 captured and 0 stored), another last byte stored by a validation that
returned Success, a byte past ID_BYTES that does not count, and a busy validation; aborted or not. -/
theorem test_hyps_idMismatch : let s := bulkAt .validated .erase .success 0
    let d := fun hi : Reg => { s with ids := { s.ids with idHi := hi } }
    let b := bulkAt .validated .erase .busy 0
    s.seq.pc = .bulk .validated ∧ s.bulk.lastResult = .success
    ∧ (∀ i < s.cfg.idBytes, idByteOf s.ids.idLo s.ids.idHi i = idByteOf s.ids.capLo s.ids.capHi i)
    ∧ (∃ i < s.cfg.idBytes, idByteOf (d 0x55).ids.idLo (d 0x55).ids.idHi i ≠ idByteOf s.ids.capLo s.ids.capHi i)
    ∧ (d 0x55).bulk.lastResult = .success ∧ (tick (d 0x55)).seq.pc = .bulk .validate
    ∧ (tick (d 0x55)).bulk.idRetries = 1 ∧ (tick (d 0x5500)).seq.pc = .bulk .execute
    ∧ b.bulk.lastResult ≠ .success ∧ b.bulk.abortReq = false
    ∧ (hostWrite 0x40 2 b).bulk.abortReq = true := by decide +kernel

/-- IdMismatch, Validate's READ_ID: a ready and a busy device. -/
theorem test_hyps_validate :
    let s := fun as => { bulkAt .validate .erase .success 0 with
      env := { State.reset.env with answers := as } }
    (s []).cfg.wf = true ∧ (s []).seq.pc = .bulk .validate ∧ (s []).st.session = .none
    ∧ readyAt (s ridAnswers) 0 = true ∧ readyAt (s [0]) 0 = false := by decide +kernel

/-- BulkWriteFills, BulkReadDrains and BulkEraseOne, Execute: a busy device, one ready at the last
observation, one that never is. -/
theorem test_hyps_execute : ∀ m ∈ [BulkMode.read, .write, .erase],
    let s := fun as => { bulkAt .execute m .success 0 with
      env := { State.reset.env with answers := as } }
    (s []).cfg.wf = true ∧ (s []).seq.pc = .bulk .execute ∧ (s []).bulk.mode = m
    ∧ (s []).st.session = .none ∧ readyAt (s [0]) 0 = false
    ∧ readyAt (s [0x40, 0, 0, 0, 0x40]) 0 = true ∧ ReadyAfter (s [0x40, 0, 0, 0, 0x40]) 1 3
    ∧ NeverReady (s [0x40, 0, 0, 0, 0]) 1 := by
  unfold ReadyAfter NeverReady; decide +kernel

/-- FailedAttempt at a verify read that found the device busy: past RETRY_MAX the read unit is logged bad and
still drains (R273). -/
theorem test_hyps_verifyFails : let s := bulkAt .verified .read .busy 5
    s.cfg.wf = true ∧ s.seq.pc = .bulk .verified ∧ s.bulk.lastResult ≠ .success
    ∧ s.bulk.fails.toNat = s.cfg.retryMax ∧ (tick s).seq.pc = .bulk .drainHold
    ∧ (tick s).bulk.badLog = [0] ∧ bulkInfoWord (tick s) = 0x00190006 := by decide +kernel

/-- VerifyCompares, its first two clauses: a verify that applies in either mode, and none. -/
theorem test_hyps_verifyApplies : let s := bulkAt .executed .read .success 0
    let w := { bulkAt .executed .write .success 0 with cfg := { Config.p0 with writeVerify := true } }
    let e := bulkAt .executed .erase .success 0
    s.cfg.wf = true ∧ s.st.session = .none ∧ s.bulk.lastResult = .success ∧ verifyApplies s = true
    ∧ w.cfg.wf = true ∧ verifyApplies w = true ∧ verifyApplies e = false ∧ e.bulk.mode ≠ .none
    ∧ readyAt { s with env := { s.env with answers := [0x40] } } 0 = true
    ∧ readyAt { s with env := { s.env with answers := [0] } } 0 = false := by decide +kernel

/-- FailedAttempt: below RETRY_MAX and at it. -/
theorem test_hyps_failedAttempt : let s := bulkAt .executed .write .programFailed 4
    let b := bulkAt .executed .write .programFailed 5
    s.cfg.wf = true ∧ s.seq.pc = .bulk .executed ∧ s.bulk.lastResult ≠ .success
    ∧ s.bulk.fails.toNat < s.cfg.retryMax ∧ b.bulk.fails.toNat = b.cfg.retryMax := by decide

/-- VerifyCompares: equal buffers and one word apart. -/
theorem test_hyps_verifyCompares :
    let c := { Config.p0 with pageDataWords := 1, spareWords := 0 }
    let s := { bulkAt .verified .read .success 0 with cfg := c, bufA := [(0, 0xAA)], bufC := [(0, 0xAA)] }
    let b := { s with bufC := [(0, 0xAB)] }
    s.cfg.wf = true ∧ s.seq.pc = .bulk .verified ∧ s.bulk.lastResult = .success
    ∧ s.bulk.fails.toNat ≤ s.cfg.retryMax ∧ (∀ i < s.cfg.recWords, memRead s i = cRead s i)
    ∧ ∃ i < b.cfg.recWords, memRead b i ≠ cRead b i := by decide +kernel

/-- AdvanceUnit. -/
theorem test_hyps_advanceUnit : let s := bulkAt .advance .erase .success 0
    s.seq.pc = .bulk .advance ∧ CountWf s ∧ (tick s).bulk.progress = 100 := by
  unfold CountWf; decide +kernel

/-- StreamHolds: at the loop head no unit left, an abort, a Fill begun, an erase unit; a hold that stands,
one acknowledged and one aborted; and an aborted run that ends with Success (R275). -/
theorem test_hyps_streamHolds : let w := bulkAt .loopHead .write .success 3
    let f := tick w
    let e := bulkAt .finish .erase .success 0
    (tick { w with bulk := { w.bulk with left := 0 } }).seq.pc = .bulk .finish
    ∧ w.bulk.left ≠ 0 ∧ w.bulk.abortReq = false
    ∧ (tick (hostWrite 0x40 2 w)).seq.pc = .bulk .finish ∧ (tick (hostWrite 0x40 2 w)).bulk.aborted = true
    ∧ f.seq.pc = .bulk .fillHold ∧ holding f = true ∧ (hostWrite 0x40 1 f).bulk.streamReq = false
    ∧ (tick (hostWrite 0x40 1 f)).bulk.fails = 0 ∧ (hostWrite 0x40 2 f).bulk.abortReq = true
    ∧ (tick (bulkAt .loopHead .erase .success 3)).bulk.fails = 0
    ∧ (bulkAt .drainHold .read .success 0).bulk.streamReq = false
    ∧ e.seq.pc = .bulk .finish ∧ e.seq.resume = none
    ∧ statusWord (tick { e with bulk := { e.bulk with aborted := true } }) = 2
    ∧ bulkInfoWord (tick { e with bulk := { e.bulk with aborted := true } }) = 0x00040000 := by decide +kernel

/-- InvStep and SessionClosers: the invariant holds after reset, in an open session too, and the block
steps from there. -/
theorem test_hyps_inv : let s := sessionState .rprog [0x40]
    Inv s ∧ s.st.session ≠ .none ∧ after (·.st.session) (exec (.rprogEnd false) s) = some .none
    ∧ after (·.st.busy) (step s) = some false := by
  refine ⟨⟨⟨by decide +kernel, by decide +kernel⟩, ⟨by decide +kernel, by decide +kernel, fun h => absurd rfl h⟩,
    ⟨rfl, rfl, rfl, rfl, fun _ => rfl⟩, ⟨by decide, by decide, by decide⟩, ⟨by decide, by decide⟩,
    ⟨by decide, by decide, by decide⟩, by unfold TimerWf; decide, rfl⟩, by decide +kernel, by decide +kernel,
    by decide +kernel⟩

end Sys2Proof.Machine.Tests
end

/-! What a step refuses (R13, R75), and what the block leaves unchanged however long it runs (R11, R91, R301). -/

namespace Sys2Proof.Machine

/-! ### Refusals -/

theorem fetch_badConfig {s : State} (h : s.cfg.wf = false) : fetch s = .stop .badConfig := by
  simp [fetch, h]

theorem fetch_badAccess {s : State} {a : Access} {r : List Input} (hwf : s.cfg.wf = true)
    (hin : s.env.inputs = .access a :: r) (ha : accessAligned a = false) :
    fetch s = .stop .badAccess := by
  simp [fetch, hwf, hin, ha]

theorem step_of_fetch_stop {s : State} {r : Refusal} (h : fetch s = .stop r) : step s = .refused r := by
  simp [step, h]

/-! ### The retry controller's moves -/

/-- From s to t the configuration, the request registers and everything outside the block but the count of
free values are unchanged: no bus event is made. -/
structure OffBus (s t : State) : Prop where
  cfg : t.cfg = s.cfg
  regs : t.regs = s.regs
  env : t.env = { s.env with frees := t.env.frees }

theorem OffBus.after {s t u : State} (g : OffBus t u) (h : OffBus s t) : OffBus s u :=
  ⟨g.cfg.trans h.cfg, g.regs.trans h.regs, by rw [g.env, h.env]⟩

theorem offBus_endOp (r : Result) (s : State) : OffBus s (endOp r s) := by
  unfold endOp
  dsimp only
  split <;> exact ⟨rfl, rfl, rfl⟩

theorem offBus_unitOver (s : State) : OffBus s (unitOver s) := by
  rcases unitOver_cases s with h | h <;> rw [h] <;> exact ⟨rfl, rfl, rfl⟩

theorem offBus_attemptFailed (s : State) : OffBus s (attemptFailed s) := by
  rcases attemptFailed_cases s with ⟨h, -⟩ | ⟨h, -⟩ <;> rw [h]
  · exact ⟨rfl, rfl, rfl⟩
  · exact (offBus_unitOver _).after ⟨rfl, rfl, rfl⟩

theorem offBus_captureCheck (s : State) : OffBus s (captureCheck s) := by
  unfold captureCheck
  split
  · exact ⟨rfl, rfl, rfl⟩
  · exact (offBus_endOp _ _).after ⟨rfl, rfl, rfl⟩

theorem offBus_loopHead (s : State) : OffBus s (loopHead s) := by
  unfold loopHead
  repeat' split
  all_goals exact ⟨rfl, rfl, rfl⟩

theorem offBus_holdEnd {next : State → State} {s : State} (h : OffBus s (next s)) :
    OffBus s (holdEnd next s) := by
  unfold holdEnd
  split
  · exact ⟨rfl, rfl, rfl⟩
  · exact h

theorem offBus_validateCheck (s : State) : OffBus s (validateCheck s) := by
  unfold validateCheck
  dsimp only
  repeat' split
  all_goals exact ⟨rfl, rfl, rfl⟩

theorem offBus_executeUnit (s : State) : OffBus s (executeUnit s) := by
  unfold executeUnit
  dsimp only
  split <;> exact ⟨rfl, rfl, rfl⟩

theorem offBus_executedCheck (s : State) : OffBus s (executedCheck s) := by
  unfold executedCheck
  split
  · cases s.bulk.mode with
    | none => exact ⟨rfl, rfl, rfl⟩
    | erase => exact offBus_unitOver s
    | read =>
      dsimp only
      split
      · exact ⟨rfl, rfl, rfl⟩
      · exact offBus_unitOver s
    | write =>
      dsimp only
      split
      · exact ⟨rfl, rfl, rfl⟩
      · exact offBus_unitOver s
  · exact offBus_attemptFailed s

/-- A comparison of the buffers counts as one reading of them (R268, log 4). -/
theorem offBus_verifiedCheck (s : State) : OffBus s (verifiedCheck s) := by
  unfold verifiedCheck
  split
  · split
    · exact (offBus_attemptFailed _).after ⟨rfl, rfl, rfl⟩
    · exact (offBus_unitOver _).after ⟨rfl, rfl, rfl⟩
  · exact offBus_attemptFailed s

theorem offBus_retryStep (p : RetryPt) (s : State) : OffBus s (retryStep p s) := by
  cases p with
  | captured => exact offBus_captureCheck s
  | loopHead => exact offBus_loopHead s
  | fillHold => exact offBus_holdEnd ⟨rfl, rfl, rfl⟩
  | validated => exact offBus_validateCheck s
  | execute => exact offBus_executeUnit s
  | executed => exact offBus_executedCheck s
  | verified => exact offBus_verifiedCheck s
  | drainHold => exact offBus_holdEnd ⟨rfl, rfl, rfl⟩
  | finish => exact (offBus_endOp _ _).after ⟨rfl, rfl, rfl⟩
  | capture | validate | advance => exact ⟨rfl, rfl, rfl⟩

/-! ### Runs -/

/-- From s to t the block has run: the configuration, the request registers but FDATA, the inputs and the
host's reads are unchanged, and the trace is extended at its end. -/
structure BlockFrame (s t : State) : Prop where
  cfg : t.cfg = s.cfg
  regs : t.regs = { s.regs with fdata := t.regs.fdata }
  trace : ∃ es, t.env.trace = s.env.trace ++ es
  inputs : t.env.inputs = s.env.inputs
  reads : t.env.reads = s.env.reads

theorem BlockFrame.refl (s : State) : BlockFrame s s := ⟨rfl, rfl, ⟨[], (List.append_nil _).symm⟩, rfl, rfl⟩

theorem BlockFrame.trans {s t u : State} (h : BlockFrame s t) (g : BlockFrame t u) : BlockFrame s u := by
  obtain ⟨es, hes⟩ := h.trace
  obtain ⟨fs, hfs⟩ := g.trace
  exact ⟨g.cfg.trans h.cfg, by rw [g.regs, h.regs],
    ⟨es ++ fs, by rw [hfs, hes, List.append_assoc]⟩, g.inputs.trans h.inputs, g.reads.trans h.reads⟩

theorem OffBus.blockFrame {s t : State} (h : OffBus s t) : BlockFrame s t :=
  ⟨h.cfg, by rw [h.regs], ⟨[], by rw [h.env, List.append_nil]⟩, by rw [h.env], by rw [h.env]⟩

/-- A plain micro-operation only appends to the trace (R140). -/
theorem applyAct_trace (a : Act) (s : State) :
    ∃ es, (applyAct a s).env.trace = s.env.trace ++ es := by
  cases a with
  | clearWcnt | loadTimer | setSession | storeId | storeFeature => exact ⟨[], (List.append_nil _).symm⟩
  | setDir | cmd | addr | wrByte | wrBuf | rdBufA | rdBufC | rdByte | rdStatus | samplePin | delay =>
    exact ⟨_, rfl⟩

theorem blockFrame_applyAct (a : Act) (s : State) : BlockFrame s (applyAct a s) := by
  obtain ⟨cfg, -, regs, -, -, -, -, -, -, inputs, reads⟩ := applyAct_keeps a s
  exact ⟨cfg, regs, applyAct_trace a s, inputs, reads⟩

theorem blockFrame_tick (s : State) : BlockFrame s (tick s) := by
  cases hpc : s.seq.pc with
  | idle => rw [tick, hpc]; exact BlockFrame.refl s
  | bulk p => rw [tick, hpc]; exact (offBus_retryStep p s).blockFrame
  | exec op k =>
    obtain ⟨a, k', h⟩ | ⟨r, h⟩ | ⟨k', h⟩ | ⟨-, k', h⟩ | ⟨m, h⟩ := sequencer_cases hpc <;> rw [h]
    · exact (blockFrame_applyAct a s).trans (OffBus.blockFrame ⟨rfl, rfl, rfl⟩)
    · exact (offBus_endOp r s).blockFrame
    all_goals exact OffBus.blockFrame ⟨rfl, rfl, rfl⟩

theorem blockFrame_drive (n : Nat) (s : State) : BlockFrame s (drive n s) := by
  induction n generalizing s with
  | zero => exact BlockFrame.refl s
  | succ n ih =>
    rw [drive]
    split
    · exact (blockFrame_tick s).trans (ih _)
    · exact BlockFrame.refl s

/-! ### The statements -/

/-- Settles O60: every micro-operation keeps the frame, so every run of them does. -/
theorem runKeeps : Obligations.RunKeeps := by
  intro n s
  obtain ⟨cfg, regs, trace, inputs, reads⟩ := blockFrame_drive n s
  exact ⟨cfg, regs, trace, inputs, reads⟩

/-- Settles O6: the fetch stops with the reason, and the step is refused with it. -/
theorem stepRefuses : Obligations.StepRefuses :=
  ⟨fun _ hwf => step_of_fetch_stop (fetch_badConfig hwf),
    fun _ _ _ hwf hin ha => step_of_fetch_stop (fetch_badAccess hwf hin ha)⟩

end Sys2Proof.Machine

/-! The machine's invariant holds after reset and is kept by every step (R35, R44, R72, R73, R114, R148, R155,
R270, R271, R276, R300, R313). -/

namespace Sys2Proof.Machine

/-! ### What the invariant reads -/

/-- The state with everything the invariant does not read at its reset value. -/
def invPart (s : State) : State :=
  let z := resetOf s.cfg
  { z with
    st := { z.st with busy := s.st.busy, done := s.st.done }
    ids := { z.ids with idHi := s.ids.idHi, capHi := s.ids.capHi }
    bulk := { z.bulk with
      left := s.bulk.left, count := s.bulk.count, unitsDone := s.bulk.unitsDone, fails := s.bulk.fails
      progress := s.bulk.progress, active := s.bulk.active, badLog := s.bulk.badLog }
    seq := { z.seq with
      pc := s.seq.pc, resume := s.seq.resume, tmrCnt := s.seq.tmrCnt, tmrThr := s.seq.tmrThr }
    pins := { s.pins with dir := z.pins.dir, ioOut := z.pins.ioOut }
    bufA := s.bufA
    bufC := s.bufC }

theorem inv_invPart (s : State) : Inv (invPart s) ↔ Inv s := Iff.rfl

/-- A change of what the invariant does not read keeps it. -/
theorem Inv.of_invPart {s t : State} (h : Inv s) (e : invPart t = invPart s) : Inv t :=
  (inv_invPart t).1 (e ▸ (inv_invPart s).2 h)

/-- The strobes are at rest (R114). -/
def AtRest (p : Pins) : Prop := p.cle = false ∧ p.ale = false ∧ p.weN = true ∧ p.reN = true

theorem Inv.atRest {s : State} (h : Inv s) : AtRest s.pins := by
  obtain ⟨-, -, ⟨cle, ale, weN, reN, -⟩, -⟩ := h
  exact ⟨cle, ale, weN, reN⟩

/-- The part of the invariant that does not depend on where the block stands. -/
structure DataWf (s : State) : Prop where
  buffers : BuffersWf s
  log : s.bulk.badLog.length ≤ s.cfg.badLogDepth
  idHi : s.ids.idHi.toNat < 2 ^ 16
  capHi : s.ids.capHi.toNat < 2 ^ 16
  timer : TimerWf s
  fails : s.bulk.fails.toNat ≤ s.cfg.retryMax + 1
  count : s.bulk.unitsDone.toNat + s.bulk.left.toNat = s.bulk.count.toNat
  progress : s.bulk.progress.toNat ≤ 100

theorem Inv.dataWf {s : State} (h : Inv s) : DataWf s := by
  obtain ⟨buffers, -, -, ⟨log, idHi, capHi⟩, ⟨fails, -⟩, ⟨count, -, progress⟩, timer, -⟩ := h
  exact ⟨buffers, log, idHi, capHi, timer, fails, count, progress⟩

theorem DataWf.regs {s : State} (h : DataWf s) : RegsWf s := ⟨h.log, h.idHi, h.capHi⟩

/-- What the invariant asks of a run whose retry controller is to move at p. -/
structure InRun (p : RetryPt) (s : State) : Prop where
  data : DataWf s
  attempt : inAttempt p = true → s.bulk.fails.toNat ≤ s.cfg.retryMax
  unit : inUnit p = true → s.bulk.left ≠ 0
  busy : s.st.busy = true
  done : s.st.done = false
  active : s.bulk.active = true
  resume : s.seq.resume = none
  rest : AtRest s.pins
  ceN : s.pins.ceN = true

theorem inv_goTo {p : RetryPt} {s : State} (h : InRun p s) : Inv (goTo p s) := by
  obtain ⟨cle, ale, weN, reN⟩ := h.rest
  refine ⟨h.data.buffers, ⟨?_, fun _ => h.done, fun e => absurd h.resume e⟩,
    ⟨cle, ale, weN, reN, fun _ => h.ceN⟩, h.data.regs, ⟨h.data.fails, h.attempt⟩,
    ⟨h.data.count, h.unit, h.data.progress⟩, h.data.timer, h.active⟩
  simp [h.busy]

theorem inRun_of_inv {p : RetryPt} {s : State} (hpc : s.seq.pc = .bulk p) (h : Inv s) : InRun p s := by
  have data := h.dataWf
  obtain ⟨-, ⟨busy, done, resume⟩, ⟨cle, ale, weN, reN, ceN⟩, -, ⟨-, attempt⟩, ⟨-, unit, -⟩, -, active⟩ := h
  have hbusy : s.st.busy = true := by simpa [hpc] using busy
  refine ⟨data, ?_, ?_, hbusy, done hbusy, ?_, ?_, ⟨cle, ale, weN, reN⟩, ceN (by simp [hpc])⟩
  · simpa [attempting, hpc] using attempt
  · simpa [unitOpen, hpc] using unit
  · simpa [ActiveWf, bulkRunning, hpc] using active
  · by_contra hr
    obtain ⟨op, k, he⟩ := resume hr
    simp [hpc] at he

/-- A change of what the invariant does not read keeps the run's part of it. -/
theorem InRun.of_invPart {p : RetryPt} {s t : State} (h : InRun p s)
    (e : invPart (goTo p t) = invPart (goTo p s)) : InRun p t := by
  have g := inRun_of_inv rfl ((inv_goTo h).of_invPart e)
  exact { g with data := { g.data with } }

/-- The retry controller goes on at q: in an attempt or a unit only if it was in one at p. -/
theorem InRun.onward {p q : RetryPt} {s : State} (h : InRun p s) (ha : inAttempt q = true → inAttempt p = true)
    (hu : inUnit q = true → inUnit p = true) : InRun q s :=
  { h with attempt := fun e => h.attempt (ha e), unit := fun e => h.unit (hu e) }

theorem inv_issue {p : RetryPt} {s : State} (h : InRun p s) (cur : Cur) (body : Config → Cur → List Micro) :
    Inv (issue cur body p s) := by
  obtain ⟨cle, ale, weN, reN⟩ := h.rest
  refine ⟨h.data.buffers, ⟨?_, fun _ => h.done, fun _ => ⟨_, _, rfl⟩⟩,
    ⟨cle, ale, weN, reN, fun e => absurd rfl (e _ _)⟩, h.data.regs, ⟨h.data.fails, h.attempt⟩,
    ⟨h.data.count, h.unit, h.data.progress⟩, h.data.timer, h.active⟩
  simp [issue, h.busy]

/-- The end of a host operation or of a run (R300). -/
theorem inv_endOp_host {s : State} {r : Result} (h : DataWf s) (hr : s.seq.resume = none)
    (ha : s.bulk.active = false) : Inv (endOp r s) := by
  rw [endOp_host hr]
  refine ⟨h.buffers, ⟨by simp, by simp, fun e => absurd hr e⟩, ⟨rfl, rfl, rfl, rfl, fun _ => rfl⟩, h.regs,
    ⟨h.fails, fun e => by simp [attempting] at e⟩, ⟨h.count, fun e => by simp [unitOpen] at e, h.progress⟩,
    h.timer, ha⟩

/-- The end of a run (R263, R275). -/
theorem inv_endRun {p : RetryPt} {s : State} (h : InRun p s) (r : Result) :
    Inv (endOp r { s with bulk := { s.bulk with active := false } }) :=
  inv_endOp_host (s := { s with bulk := { s.bulk with active := false } }) { h.data with } h.resume rfl

/-! ### The retry controller's moves -/

theorem inv_abortRun {p : RetryPt} {s : State} (h : InRun p s) : Inv (abortRun s) :=
  inv_goTo ((h.onward (q := .finish) nofun nofun).of_invPart rfl)

theorem inv_captureCheck {s : State} (h : InRun .captured s) : Inv (captureCheck s) := by
  unfold captureCheck
  split
  · refine inv_goTo { h with data := { h.data with capHi := h.data.idHi, progress := ?_ } }
    dsimp only
    split
    · decide
    · exact h.data.progress
  · exact inv_endRun h _

theorem inv_beginAttempts {p : RetryPt} {s : State} (h : InRun p s) (hl : s.bulk.left ≠ 0) :
    Inv (beginAttempts s) :=
  inv_goTo { h with
    data := { h.data with fails := Nat.zero_le _ }, attempt := fun _ => Nat.zero_le _, unit := fun _ => hl }

theorem inv_loopHead {s : State} (h : InRun .loopHead s) : Inv (loopHead s) := by
  unfold loopHead
  split
  · exact inv_goTo (h.onward (by decide) (by decide))
  · rename_i hl
    split
    · exact inv_abortRun h
    · split
      · exact inv_goTo { h with data := { h.data with }, attempt := nofun, unit := fun _ => hl }
      · exact inv_beginAttempts h hl

theorem inv_holdEnd {p : RetryPt} {s : State} {next : State → State} (h : InRun p s)
    (hn : Inv (next s)) : Inv (holdEnd next s) := by
  unfold holdEnd
  split
  · exact inv_abortRun (h.of_invPart (t := { s with bulk := { s.bulk with streamReq := false } }) rfl)
  · exact hn

theorem inv_validateCheck {s : State} (h : InRun .validated s) : Inv (validateCheck s) := by
  have h' : InRun .validated { s with bulk := { s.bulk with idRetries := satInc s.bulk.idRetries } } :=
    h.of_invPart rfl
  unfold validateCheck
  split
  · exact inv_goTo (h.onward (by decide) (by decide))
  · dsimp only
    split
    · exact inv_abortRun h'
    · exact inv_goTo (h'.onward (by decide) (by decide))

theorem inv_executeUnit {s : State} (h : InRun .execute s) : Inv (executeUnit s) := by
  have h' : InRun .executed (setPhase .execute s) :=
    (h.onward (q := .executed) (by decide) (by decide)).of_invPart rfl
  unfold executeUnit
  dsimp only
  split
  · exact inv_issue h' _ _
  · exact inv_issue h' _ _
  · exact inv_issue h' _ _
  · exact inv_goTo (h'.onward (by decide) (by decide))

theorem inv_unitOver {p : RetryPt} {s : State} (h : InRun p s) (hp : inUnit p = true) : Inv (unitOver s) := by
  obtain e | e := unitOver_cases s <;> rw [e]
  · exact inv_goTo (h.onward (q := .advance) nofun fun _ => hp)
  · exact inv_goTo ((h.onward (q := .drainHold) nofun fun _ => hp).of_invPart rfl)

/-- A push onto the bad-unit log keeps it within its depth (R44). -/
theorem badLog_length_push {log : List Reg} {d : Nat} (h : log.length ≤ d) (u : Reg) :
    (if log.length < d then log ++ [u] else log).length ≤ d := by
  split
  · simpa using ‹_›
  · exact h

theorem inRun_logBad {p : RetryPt} {s : State} (h : InRun p s) : InRun p (logBad s) :=
  { h with data := { h.data with log := badLog_length_push h.data.log s.bulk.unit } }

/-- FAILS has three bits, and RETRY_MAX is at most 6 (R12): it does not wrap. -/
theorem inv_attemptFailed {p : RetryPt} {s : State} (hwf : s.cfg.wf = true) (h : InRun p s)
    (hp : inAttempt p = true) (hu : inUnit p = true) : Inv (attemptFailed s) := by
  obtain ⟨-, -, -, hmax, -⟩ := wf_bounds hwf
  have hle := h.attempt hp
  have hfails : (s.bulk.fails + 1).toNat = s.bulk.fails.toNat + 1 :=
    BitVec.toNat_add_of_lt (by simp; omega)
  have h' : InRun .advance { s with bulk := { s.bulk with fails := s.bulk.fails + 1 } } :=
    { h with
      data := { h.data with fails := by dsimp only; omega }, attempt := nofun, unit := fun _ => h.unit hu }
  obtain ⟨e, hlow⟩ | ⟨e, -⟩ := attemptFailed_cases s <;> rw [e]
  · exact inv_goTo { h' with attempt := fun _ => hlow, unit := fun _ => h.unit hu }
  · exact inv_unitOver (inRun_logBad h') rfl

theorem inv_executedCheck {s : State} (hwf : s.cfg.wf = true) (h : InRun .executed s) :
    Inv (executedCheck s) := by
  have hv : InRun .verified s := h.onward (by decide) (by decide)
  have hover : Inv (unitOver s) := inv_unitOver h rfl
  unfold executedCheck
  split
  · cases s.bulk.mode with
    | none => exact inv_goTo (h.onward (by decide) (by decide))
    | erase => exact hover
    | read =>
      dsimp only
      split
      · exact inv_issue (hv.of_invPart (t := setPhase .verify s) rfl) _ _
      · exact hover
    | write =>
      dsimp only
      split
      · exact inv_issue hv _ _
      · exact hover
  · exact inv_attemptFailed hwf h rfl rfl

theorem inv_verifiedCheck {s : State} (hwf : s.cfg.wf = true) (h : InRun .verified s) :
    Inv (verifiedCheck s) := by
  unfold verifiedCheck
  split
  · split
    · exact inv_attemptFailed hwf (h.of_invPart rfl) rfl rfl
    · exact inv_unitOver (h.of_invPart rfl) rfl
  · exact inv_attemptFailed hwf h rfl rfl

/-- PROGRESS is a percentage (R276). -/
theorem progressOf_le {d c : Reg} (h : d.toNat ≤ c.toNat) : (progressOf d c).toNat ≤ 100 := by
  have : d.toNat * 100 / c.toNat ≤ 100 :=
    Nat.div_le_of_le_mul (Nat.mul_le_mul_right 100 h)
  simp only [progressOf, BitVec.toNat_ofNat]
  exact (Nat.mod_le _ _).trans this

/-- Advance moves one unit from those left to those done (R271). -/
theorem inv_advanceUnit {s : State} (h : InRun .advance s) : Inv (advanceUnit s) := by
  have hleft : s.bulk.left.toNat ≠ 0 := fun e => h.unit rfl (BitVec.eq_of_toNat_eq e)
  have hcount := h.data.count
  have hlt := s.bulk.count.isLt
  have hdone : (s.bulk.unitsDone + 1).toNat = s.bulk.unitsDone.toNat + 1 :=
    BitVec.toNat_add_of_lt (by simp; omega)
  have hrest : (s.bulk.left - 1).toNat = s.bulk.left.toNat - 1 :=
    BitVec.toNat_sub_of_le (by simp [BitVec.le_def]; omega)
  refine inv_goTo { h with
    data := { h.data with count := ?_, progress := progressOf_le ?_ }, attempt := nofun, unit := nofun }
  · dsimp only; omega
  · omega

theorem inv_retryStep {p : RetryPt} {s : State} (hwf : s.cfg.wf = true) (h : InRun p s) :
    Inv (retryStep p s) := by
  cases p with
  | capture => exact inv_issue (h.onward (q := .captured) (by decide) (by decide)) _ _
  | captured => exact inv_captureCheck h
  | loopHead => exact inv_loopHead h
  | fillHold => exact inv_holdEnd h (inv_beginAttempts h (h.unit rfl))
  | validate =>
    have h' : InRun .validated (setPhase .validate s) :=
      (h.onward (q := .validated) (by decide) (by decide)).of_invPart rfl
    exact inv_issue h' _ _
  | validated => exact inv_validateCheck h
  | execute => exact inv_executeUnit h
  | executed => exact inv_executedCheck hwf h
  | verified => exact inv_verifiedCheck hwf h
  | drainHold => exact inv_holdEnd h (inv_goTo (h.onward (by decide) (by decide)))
  | advance => exact inv_advanceUnit h
  | finish => exact inv_endRun h _

/-! ### The sequencer's moves -/

theorem applyAct_buffersWf (a : Act) {s : State} (h : BuffersWf s) : BuffersWf (applyAct a s) := by
  cases a with
  | rdBufA => exact memWrite_buffersWf _ _ (readCycle s) h
  | rdBufC => exact cWrite_buffersWf _ _ (readCycle s) h
  | _ => exact h

theorem applyAct_timerWf (a : Act) {s : State} (h : TimerWf s) : TimerWf (applyAct a s) := by
  cases a with
  | delay t => exact le_refl t.toNat
  | loadTimer => exact Nat.zero_le _
  | _ => exact h

theorem toNat_pack2_lt (b0 b1 : Byte) : (pack2 b0 b1).toNat < 2 ^ 16 := by
  have := (b1 ++ b0).isLt
  simp only [pack2, BitVec.toNat_setWidth]
  omega

theorem applyAct_idHi (a : Act) {s : State} (h : s.ids.idHi.toNat < 2 ^ 16) :
    (applyAct a s).ids.idHi.toNat < 2 ^ 16 := by
  cases a with
  | storeId => exact toNat_pack2_lt _ _
  | _ => exact h

theorem applyAct_atRest (a : Act) {s : State} (h : AtRest s.pins) : AtRest (applyAct a s).pins := by
  obtain ⟨cle, ale, weN, reN⟩ | e := applyAct_pins a s
  · rwa [AtRest, cle, ale, weN, reN]
  · exact e

/-! While the sequencer runs, the run, the attempt and the unit are those of the point it returns to. -/

theorem bulkRunning_exec {s : State} {op : Byte} {k : List Micro} (h : s.seq.pc = .exec op k) :
    bulkRunning s = s.seq.resume.isSome := by
  unfold bulkRunning
  rw [h]
  cases s.seq.resume <;> rfl

theorem attempting_exec {s : State} {op : Byte} {k : List Micro} (h : s.seq.pc = .exec op k) :
    attempting s = s.seq.resume.any inAttempt := by
  unfold attempting
  rw [h]
  cases s.seq.resume <;> rfl

theorem unitOpen_exec {s : State} {op : Byte} {k : List Micro} (h : s.seq.pc = .exec op k) :
    unitOpen s = s.seq.resume.any inUnit := by
  unfold unitOpen
  rw [h]
  cases s.seq.resume <;> rfl

/-- A micro-operation of the sequencer that goes on in the same operation. -/
theorem Inv.of_exec {s t : State} {op op' : Byte} {k k' : List Micro} (h : Inv s)
    (hs : s.seq.pc = .exec op k) (ht : t.seq.pc = .exec op' k') (hcfg : t.cfg = s.cfg) (hbulk : t.bulk = s.bulk)
    (hresume : t.seq.resume = s.seq.resume) (hbusy : t.st.busy = s.st.busy) (hdone : t.st.done = s.st.done)
    (hbuf : BuffersWf t) (htimer : TimerWf t) (hid : t.ids.idHi.toNat < 2 ^ 16)
    (hcap : t.ids.capHi = s.ids.capHi) (hrest : AtRest t.pins) : Inv t := by
  obtain ⟨-, ⟨busy, done, -⟩, -, ⟨log, -, cap⟩, ⟨fails, attempt⟩, ⟨count, unit, progress⟩, -, active⟩ := h
  obtain ⟨cle, ale, weN, reN⟩ := hrest
  have hatt : attempting t = attempting s := by rw [attempting_exec ht, attempting_exec hs, hresume]
  have hunit : unitOpen t = unitOpen s := by rw [unitOpen_exec ht, unitOpen_exec hs, hresume]
  have hrun : bulkRunning t = bulkRunning s := by rw [bulkRunning_exec ht, bulkRunning_exec hs, hresume]
  refine ⟨hbuf, ⟨?_, ?_, fun _ => ⟨op', k', ht⟩⟩, ⟨cle, ale, weN, reN, fun e => absurd ht (e op' k')⟩,
    ⟨?_, hid, hcap ▸ cap⟩, ⟨?_, ?_⟩, ⟨?_, ?_, ?_⟩, htimer, ?_⟩
  · simpa [hs, ht, hbusy] using busy
  · rwa [hbusy, hdone]
  · rwa [hbulk, hcfg]
  · rwa [hbulk, hcfg]
  · rwa [hatt, hbulk, hcfg]
  · rwa [hbulk]
  · rwa [hunit, hbulk]
  · rwa [hbulk]
  · rw [ActiveWf, hbulk, hrun]; exact active

theorem inv_setPc_exec {s : State} {op op' : Byte} {k : List Micro} (h : Inv s) (hs : s.seq.pc = .exec op k)
    (k' : List Micro) : Inv (setPc (.exec op' k') s) :=
  have data := h.dataWf
  h.of_exec hs rfl rfl rfl rfl rfl rfl data.buffers data.timer data.idHi rfl h.atRest

theorem inv_applyAct {s : State} {op : Byte} {k : List Micro} (h : Inv s) (hs : s.seq.pc = .exec op k)
    (a : Act) : Inv (applyAct a s) := by
  have data := h.dataWf
  obtain ⟨hcfg, hbulk, -, -, hcap, hst, hpc, hresume, -⟩ := applyAct_keeps a s
  exact h.of_exec hs (hpc.trans hs) hcfg hbulk hresume (by rw [hst]) (by rw [hst])
    (applyAct_buffersWf a data.buffers) (applyAct_timerWf a data.timer) (applyAct_idHi a data.idHi) hcap
    (applyAct_atRest a h.atRest)

/-- One more observation of a ready wait: the counter, not yet at the threshold, steps on (R153, R155). -/
theorem inv_stepTimer {s : State} {op : Byte} {k : List Micro} (h : Inv s) (hs : s.seq.pc = .exec op k)
    (hne : s.seq.tmrCnt ≠ s.seq.tmrThr) : Inv { s with seq := { s.seq with tmrCnt := s.seq.tmrCnt + 1 } } := by
  have data := h.dataWf
  have htimer := data.timer
  refine h.of_exec hs hs rfl rfl rfl rfl rfl data.buffers ?_ data.idHi rfl h.atRest
  unfold TimerWf at htimer ⊢
  have hlt : s.seq.tmrCnt.toNat ≠ s.seq.tmrThr.toNat := fun e => hne (BitVec.eq_of_toNat_eq e)
  have := s.seq.tmrThr.isLt
  rw [BitVec.toNat_add_of_lt (by simp; omega)]
  simp
  omega

/-- The end of an operation gives its result to the host or to the retry controller (R300). -/
theorem inv_endOp_exec {s : State} {op : Byte} {k : List Micro} (h : Inv s) (hs : s.seq.pc = .exec op k)
    (r : Result) : Inv (endOp r s) := by
  have data := h.dataWf
  obtain ⟨-, ⟨busy, done, -⟩, -, -, ⟨-, attempt⟩, ⟨-, unit, -⟩, -, active⟩ := h
  cases hr : s.seq.resume with
  | none => exact inv_endOp_host data hr (by simpa [ActiveWf, bulkRunning_exec hs, hr] using active)
  | some p =>
    have hbusy : s.st.busy = true := by simpa [hs] using busy
    have hend : endOp r s = goTo p (endOp r s) := by simp only [endOp, hr]; rfl
    rw [hend]
    refine inv_goTo ?_
    simp only [endOp, hr]
    exact { data := { data with }
            attempt := by simpa [attempting_exec hs, hr] using attempt
            unit := by simpa [unitOpen_exec hs, hr] using unit
            busy := hbusy
            done := done hbusy
            active := by simpa [ActiveWf, bulkRunning_exec hs, hr] using active
            resume := rfl
            rest := ⟨rfl, rfl, rfl, rfl⟩
            ceN := rfl }

theorem inv_startBulk {s : State} {op : Byte} {k : List Micro} (h : Inv s) (hs : s.seq.pc = .exec op k)
    (m : BulkMode) : Inv (startBulk m s) := by
  have data := h.dataWf
  have rest := h.atRest
  obtain ⟨-, ⟨busy, done, -⟩, -⟩ := h
  have hbusy : s.st.busy = true := by simpa [hs] using busy
  have hrun : InRun .capture (startBulk m s) :=
    { data := { data with
        log := Nat.zero_le _, fails := Nat.zero_le _, count := Nat.zero_add _, progress := Nat.zero_le _ }
      attempt := nofun
      unit := nofun
      busy := hbusy
      done := done hbusy
      active := rfl
      resume := rfl
      rest := rest
      ceN := rfl }
  exact inv_goTo hrun

/-! ### Runs -/

theorem inv_tick {s : State} (hwf : s.cfg.wf = true) (h : Inv s) : Inv (tick s) := by
  cases hpc : s.seq.pc with
  | idle => rwa [tick, hpc]
  | bulk p => rw [tick, hpc]; exact inv_retryStep hwf (inRun_of_inv hpc h)
  | exec op k =>
    obtain ⟨a, k', e⟩ | ⟨r, e⟩ | ⟨k', e⟩ | ⟨hne, k', e⟩ | ⟨m, e⟩ := sequencer_cases hpc <;> rw [e]
    · obtain ⟨-, -, -, -, -, -, hpc', -⟩ := applyAct_keeps a s
      exact inv_setPc_exec (inv_applyAct h hpc a) (hpc'.trans hpc) k'
    · exact inv_endOp_exec h hpc r
    · exact inv_setPc_exec h hpc k'
    · exact inv_setPc_exec (inv_stepTimer h hpc hne) hpc k'
    · exact inv_startBulk h hpc m

theorem inv_drive (n : Nat) {s : State} (hwf : s.cfg.wf = true) (h : Inv s) : Inv (drive n s) := by
  induction n generalizing s with
  | zero => exact h
  | succ n ih =>
    rw [drive]
    split
    · exact ih (by rwa [(blockFrame_tick s).cfg]) (inv_tick hwf h)
    · exact h

theorem inv_setInputs {s : State} (h : Inv s) (r : List Input) : Inv (setInputs r s) := h.of_invPart rfl

theorem inv_advance {s : State} (hwf : s.cfg.wf = true) (h : Inv s) : Inv (advance s) := by
  unfold advance
  split
  · exact inv_drive _ hwf h
  · exact inv_drive _ hwf h
  · exact inv_drive _ hwf h
  · exact inv_drive _ hwf (inv_setInputs h _)
  · exact h
  · exact h

/-! ### The host's accesses -/

theorem inv_refuseAccess {s : State} (h : Inv s) : Inv (refuseAccess s) := h.of_invPart rfl

theorem inv_startOp {s : State} (h : Inv s) (hidle : s.st.busy = false) (op : Byte) (l : Bool)
    (body : Config → Cur → List Micro) : Inv (startOp op l body s) := by
  have data := h.dataWf
  obtain ⟨-, ⟨busy, -, resume⟩, ⟨cle, ale, weN, reN, -⟩, -, -, -, -, active⟩ := h
  have hpc : s.seq.pc = .idle := busy.1 hidle
  have hr : s.seq.resume = none := by
    by_contra hr
    obtain ⟨op, k, he⟩ := resume hr
    simp [hpc] at he
  have ha : s.bulk.active = false := by simpa [ActiveWf, bulkRunning, hpc] using active
  refine ⟨data.buffers, ⟨?_, fun _ => rfl, fun _ => ⟨_, _, rfl⟩⟩,
    ⟨cle, ale, weN, reN, fun e => absurd rfl (e _ _)⟩, data.regs, ⟨data.fails, ?_⟩,
    ⟨data.count, ?_, data.progress⟩, data.timer, ?_⟩
  · simp [startOp]
  · simp [attempting, startOp, hr]
  · simp [unitOpen, startOp, hr]
  · simp [ActiveWf, bulkRunning, startOp, hr, ha]

theorem inv_request {s : State} (hwf : s.cfg.wf = true) (h : Inv s) (op : Byte) (l : Bool)
    (body : Config → Cur → List Micro) : Inv (request op l body s) := by
  unfold request
  split
  · exact inv_refuseAccess h
  · rename_i hidle
    exact inv_advance hwf (inv_startOp h (by simpa using hidle) op l body)

/-- Every operation is one request (R23). -/
theorem exec_eq_request (i : Instr) :
    ∃ body, ∀ s, exec i s = .next (request i.opcode i.lastFlag body s) := by
  cases i <;> exact ⟨_, fun _ => rfl⟩

theorem inv_noteRead {r : Reg × State} (h : Inv r.2) : Inv (noteRead r) := h.of_invPart rfl

theorem inv_readBadLog {s : State} (h : Inv s) : Inv (readBadLog s).2 := by
  unfold readBadLog
  split
  · exact h
  · rename_i u rest hlog
    obtain ⟨buffers, control, pins, ⟨log, hid, hcap⟩, retry, count, timer, active⟩ := h
    rw [hlog] at log
    exact ⟨buffers, control, pins, ⟨Nat.le_of_succ_le log, hid, hcap⟩, retry, count, timer, active⟩

theorem inv_hostRead (off : Byte) {s : State} (h : Inv s) : Inv (hostRead off s).2 := by
  have hfree : Inv (takeFree s) := h.of_invPart rfl
  have hptr : Inv (readBufPtr s).2 := by
    unfold readBufPtr
    split
    · exact h
    · exact inv_refuseAccess hfree
  have hdata : Inv (readBufData s).2 := by
    unfold readBufData
    dsimp only
    split
    · split
      · exact hfree.of_invPart rfl
      · exact h.of_invPart rfl
    · exact inv_refuseAccess h
  unfold hostRead
  split
  · exact hptr
  · split
    · exact hdata
    · split
      · exact inv_readBadLog h
      · exact h

theorem inv_memWrite {s : State} (h : Inv s) (i : Nat) (v : Word) : Inv (memWrite i v s) := by
  obtain ⟨buffers, rest⟩ := h
  exact ⟨memWrite_buffersWf i v s buffers, rest⟩

theorem inv_whenIdle {s : State} (h : Inv s) (f : HostRegs → HostRegs) : Inv (whenIdle f s) := by
  unfold whenIdle
  split
  · exact inv_refuseAccess h
  · exact h.of_invPart rfl

/-- What a host write leaves (R21): a request register written while idle, one of the four registers with
rules of their own, or the state as it was. -/
inductive HostWrote (v : Reg) (s : State) : State → Prop where
  | request (f : HostRegs → HostRegs) : HostWrote v s (whenIdle f s)
  | status : HostWrote v s (writeStatus v s)
  | bufPtr : HostWrote v s (writeBufPtr v s)
  | bufData : HostWrote v s (writeBufData v s)
  | stream : HostWrote v s (writeStream v s)
  | ignored : HostWrote v s s

theorem HostWrote.ite {c : Prop} [Decidable c] {v : Reg} {s t u : State} (ht : HostWrote v s t)
    (hu : HostWrote v s u) : HostWrote v s (if c then t else u) := by
  split <;> assumption

theorem hostWrite_wrote (off : Byte) (v : Reg) (s : State) : HostWrote v s (hostWrite off v s) :=
  .ite (.request _) <| .ite (.request _) <| .ite (.request _) <| .ite (.request _) <| .ite (.request _) <|
  .ite .status <| .ite .bufPtr <| .ite .bufData <|
  .ite (.request _) <| .ite (.request _) <| .ite (.request _) <| .ite .stream .ignored

theorem HostWrote.inv {v : Reg} {s t : State} (ht : HostWrote v s t) (h : Inv s) : Inv t := by
  have hstatus : Inv (writeStatus v s) := by
    unfold writeStatus
    split
    · exact h.of_invPart rfl
    · exact h
  have hptr : Inv (writeBufPtr v s) := by
    unfold writeBufPtr
    split
    · exact h.of_invPart rfl
    · exact inv_refuseAccess h
  have hdata : Inv (writeBufData v s) := by
    unfold writeBufData
    split
    · exact (inv_memWrite h _ _).of_invPart rfl
    · exact inv_refuseAccess h
  have hstream : Inv (writeStream v s) := h.of_invPart rfl
  cases ht with
  | request f => exact inv_whenIdle h f
  | status => exact hstatus
  | bufPtr => exact hptr
  | bufData => exact hdata
  | stream => exact hstream
  | ignored => exact h

theorem inv_hostAccess (a : Access) {s : State} (h : Inv s) : Inv (hostAccess a s) := by
  cases a with
  | read off bytes => exact inv_noteRead (inv_hostRead off h)
  | write off bytes v => exact (hostWrite_wrote off v s).inv h

/-! ### Steps -/

/-- What the fetch hands on: a next state, or an operation to run. -/
def InvFetch : Fetch → Prop
  | .stop _ => True
  | .run _ s => s.cfg.wf = true ∧ Inv s
  | .go s => Inv s

theorem invFetch_fetchAccess {s : State} (hwf : s.cfg.wf = true) (h : Inv s) (a : Access) :
    InvFetch (fetchAccess a s) := by
  unfold fetchAccess
  split
  · exact inv_hostAccess a h
  · split
    · exact ⟨hwf, h⟩
    · exact inv_request hwf h _ _ _
    · exact inv_hostAccess a h

theorem inv_pollHost {s : State} {off : Byte} (hread : hostRead off s = (plainRead s off, s)) (bit : Bool)
    (r : List Input) (hwf : s.cfg.wf = true) (h : Inv s) : Inv (pollHost off bit r s) := by
  have hnote : Inv (noteRead (plainRead s off, s)) := inv_noteRead h
  unfold pollHost
  rw [hread]
  dsimp only
  split
  · exact inv_setInputs hnote r
  · exact inv_advance hwf hnote

theorem resetOf_inv (c : Config) : Inv (resetOf c) :=
  ⟨resetOf_buffersWf c, ⟨by simp [resetOf], fun _ => rfl, nofun⟩, ⟨rfl, rfl, rfl, rfl, fun _ => rfl⟩,
    ⟨Nat.zero_le _, by simp [resetOf], by simp [resetOf]⟩, ⟨Nat.zero_le _, nofun⟩,
    ⟨rfl, nofun, Nat.zero_le _⟩, le_refl 0, rfl⟩

theorem invFetch_fetch {s : State} (h : Inv s) : InvFetch (fetch s) := by
  unfold fetch
  split
  · trivial
  · rename_i hwf
    have hwf : s.cfg.wf = true := by simpa using hwf
    split
    · exact inv_advance hwf h
    · exact inv_advance hwf h
    · exact inv_pollHost rfl _ _ hwf h
    · exact inv_pollHost rfl _ _ hwf h
    · exact (resetOf_inv s.cfg).of_invPart rfl
    · rename_i a r _
      split
      · exact invFetch_fetchAccess (s := setInputs r s) hwf (inv_setInputs h r) a
      · trivial

/-- Settles O58: the fetch hands on a state in which the invariant holds, and an operation is one request. -/
theorem invStep : Obligations.InvStep := by
  intro s t h ht
  have hf := invFetch_fetch h
  unfold step at ht
  split at ht
  case h_1 => cases ht
  case h_2 i u hfetch =>
    rw [hfetch] at hf
    obtain ⟨hwf, hu⟩ := hf
    obtain ⟨body, hexec⟩ := exec_eq_request i
    rw [hexec] at ht
    cases ht
    exact inv_request hwf hu _ _ _
  case h_3 u hfetch =>
    rw [hfetch] at hf
    cases ht
    exact hf

/-- Settles O57. -/
theorem invReset : Obligations.InvReset := resetOf_inv

end Sys2Proof.Machine

/-! The host register window: the fields of STATUS, CFG and BULK_INFO (R27, R33, R35), reads and writes of every
offset, idle and busy (R20 to R46, R53), and the reset values (R52). -/

namespace Sys2Proof.Machine

/-! ### Fields of a register -/

theorem getLsbD_bitAt (b : Bool) {n : Nat} (hn : n < 32) (i : Nat) :
    (bitAt b n).getLsbD i = (decide (i = n) && b) := by
  cases b
  · simp [bitAt]
  · simp only [bitAt, if_true, BitVec.getLsbD_shiftLeft, BitVec.getLsbD_one]
    by_cases h : i = n
    · simp [h, hn]
    · simp [h]; omega

theorem getLsbD_fieldAt {w : Nat} (x : BitVec w) {k : Nat} (hk : k + w ≤ 32) (i : Nat) :
    (x.setWidth 32 <<< k).getLsbD i = (decide (k ≤ i) && x.getLsbD (i - k)) := by
  simp only [BitVec.getLsbD_shiftLeft, BitVec.getLsbD_setWidth]
  by_cases h : i < 32
  · by_cases hi : k ≤ i
    · simp [h, hi, show i - k < 32 by omega]
    · simp [hi, Nat.lt_of_not_le hi]
  · have : x.getLsbD (i - k) = false := BitVec.getLsbD_of_ge _ _ (by omega)
    simp [this]

theorem extractLsb'_eq_of_bits {w k : Nat} {v : Reg} {x : BitVec w}
    (h : ∀ j < w, v.getLsbD (k + j) = x.getLsbD j) : v.extractLsb' k w = x :=
  BitVec.eq_of_getLsbD_eq fun j hj => by rw [BitVec.getLsbD_extractLsb', h j hj]; simp [hj]

/-- Bit i of STATUS (R27). -/
theorem getLsbD_statusWord (s : State) (i : Nat) : (statusWord s).getLsbD i =
    (decide (i = 0) && s.st.busy || decide (i = 1) && s.st.done || decide (i = 2) && s.st.ovr
      || decide (4 ≤ i) && (resultCode s.st.result).getLsbD (i - 4)
      || decide (8 ≤ i) && s.st.lastSr.getLsbD (i - 8)
      || decide (16 ≤ i) && (sessionCode s.st.session).getLsbD (i - 16) || decide (i = 19) && s.st.idcap) := by
  simp only [statusWord, BitVec.getLsbD_or]
  rw [getLsbD_bitAt _ (by decide), getLsbD_bitAt _ (by decide), getLsbD_bitAt _ (by decide),
    getLsbD_bitAt _ (by decide), getLsbD_fieldAt _ (by decide), getLsbD_fieldAt _ (by decide),
    getLsbD_fieldAt _ (by decide)]

/-- Bit i of BULK_INFO (R35). -/
theorem getLsbD_bulkInfoWord (s : State) (i : Nat) : (bulkInfoWord s).getLsbD i =
    (s.bulk.fails.getLsbD i || decide (8 ≤ i) && s.bulk.progress.getLsbD (i - 8)
      || decide (i = 16) && s.bulk.streamReq || decide (i = 17) && s.bulk.streamDir
      || decide (i = 18) && s.bulk.aborted || decide (i = 19) && s.bulk.active
      || decide (20 ≤ i) && (resultCode s.bulk.lastResult).getLsbD (i - 20)) := by
  have hfails : (s.bulk.fails.setWidth 32).getLsbD i = s.bulk.fails.getLsbD i := by
    simpa using getLsbD_fieldAt s.bulk.fails (k := 0) (by decide) i
  simp only [bulkInfoWord, BitVec.getLsbD_or, hfails]
  rw [getLsbD_bitAt _ (by decide), getLsbD_bitAt _ (by decide), getLsbD_bitAt _ (by decide),
    getLsbD_bitAt _ (by decide), getLsbD_fieldAt _ (by decide), getLsbD_fieldAt _ (by decide)]

/-- Bit i of CFG (R33). -/
theorem getLsbD_cfgWord (c : Config) (i : Nat) : (cfgWord c).getLsbD i =
    (decide (i = 0) && (c.busWidth == 16) || decide (i = 1) && c.addrConvert
      || decide (i = 2) && decide (c.planeMode = .onfi) || decide (i = 3) && (c.rowCycles == 3)
      || decide (4 ≤ i) && (BitVec.ofNat 3 c.idBytes).getLsbD (i - 4)
      || decide (i = 7) && decide (c.rbSource = .rbPin) || decide (i = 8) && (c.readyBit == 7)
      || decide (i = 9) && c.readVerify || decide (i = 10) && c.writeVerify
      || decide (i = 11) && c.includeSpare || decide (i = 12) && c.hasEnhStatus
      || decide (16 ≤ i) && (BitVec.ofNat 5 c.rowShift).getLsbD (i - 16)) := by
  simp only [cfgWord, BitVec.getLsbD_or]
  rw [getLsbD_fieldAt _ (by decide), getLsbD_fieldAt _ (by decide)]
  simp only [getLsbD_bitAt _ (show 0 < 32 by decide), getLsbD_bitAt _ (show 1 < 32 by decide),
    getLsbD_bitAt _ (show 2 < 32 by decide), getLsbD_bitAt _ (show 3 < 32 by decide),
    getLsbD_bitAt _ (show 7 < 32 by decide), getLsbD_bitAt _ (show 8 < 32 by decide),
    getLsbD_bitAt _ (show 9 < 32 by decide), getLsbD_bitAt _ (show 10 < 32 by decide),
    getLsbD_bitAt _ (show 11 < 32 by decide), getLsbD_bitAt _ (show 12 < 32 by decide)]

/-- Settles O13: each field is read off the bits of STATUS. -/
theorem statusRead : Obligations.StatusRead := by
  intro s
  have hread : (hostRead 0x14 s).1 = statusWord s := rfl
  have hbit := getLsbD_statusWord s
  have result : (statusWord s).extractLsb' 4 4 = resultCode s.st.result :=
    extractLsb'_eq_of_bits fun j hj => by rw [hbit]; interval_cases j <;> simp
  have lastSr : (statusWord s).extractLsb' 8 8 = s.st.lastSr :=
    extractLsb'_eq_of_bits fun j hj => by rw [hbit]; interval_cases j <;> simp
  have session : (statusWord s).extractLsb' 16 3 = sessionCode s.st.session :=
    extractLsb'_eq_of_bits fun j hj => by rw [hbit]; interval_cases j <;> simp
  have reserved : (statusWord s).extractLsb' 20 12 = 0 :=
    extractLsb'_eq_of_bits fun j hj => by rw [hbit]; interval_cases j <;> simp
  rw [hread]
  exact ⟨(hbit 0).trans (by simp), (hbit 1).trans (by simp), (hbit 2).trans (by simp), (hbit 3).trans (by simp),
    result, lastSr, session, (hbit 19).trans (by simp), reserved⟩

/-- Settles O15: each field is read off the bits of BULK_INFO. -/
theorem bulkInfoRead : Obligations.BulkInfoRead := by
  intro s
  have hread : (hostRead 0x3C s).1 = bulkInfoWord s := rfl
  have hbit := getLsbD_bulkInfoWord s
  have fails : (bulkInfoWord s).extractLsb' 0 3 = s.bulk.fails :=
    extractLsb'_eq_of_bits fun j hj => by rw [hbit]; interval_cases j <;> simp
  have reserved : (bulkInfoWord s).extractLsb' 3 5 = 0 :=
    extractLsb'_eq_of_bits fun j hj => by rw [hbit]; interval_cases j <;> simp
  have progress : (bulkInfoWord s).extractLsb' 8 8 = s.bulk.progress :=
    extractLsb'_eq_of_bits fun j hj => by rw [hbit]; interval_cases j <;> simp
  have lastResult : (bulkInfoWord s).extractLsb' 20 4 = resultCode s.bulk.lastResult :=
    extractLsb'_eq_of_bits fun j hj => by rw [hbit]; interval_cases j <;> simp
  have reserved' : (bulkInfoWord s).extractLsb' 24 8 = 0 :=
    extractLsb'_eq_of_bits fun j hj => by rw [hbit]; interval_cases j <;> simp
  rw [hread]
  exact ⟨fails, reserved, progress, (hbit 16).trans (by simp), (hbit 17).trans (by simp),
    (hbit 18).trans (by simp), (hbit 19).trans (by simp), lastResult, reserved'⟩

theorem idBytes_rowShift_bounds {c : Config} (h : c.wf = true) : c.idBytes < 2 ^ 3 ∧ c.rowShift < 2 ^ 5 := by
  simp [Config.wf] at h
  omega

/-- Settles O14: each field is read off the bits of CFG, and in a well-formed configuration ID_BYTES and
ROW_SHIFT fit theirs. -/
theorem cfgRead : Obligations.CfgRead := by
  intro s w hwf
  obtain ⟨hid, hrow⟩ := idBytes_rowShift_bounds hwf
  have hread : (hostRead 0x2C s).1 = cfgWord s.cfg := rfl
  have hbit := getLsbD_cfgWord s.cfg
  have idBytes : (cfgWord s.cfg).extractLsb' 4 3 = BitVec.ofNat 3 s.cfg.idBytes :=
    extractLsb'_eq_of_bits fun j hj => by rw [hbit]; interval_cases j <;> simp
  have rowShift : (cfgWord s.cfg).extractLsb' 16 5 = BitVec.ofNat 5 s.cfg.rowShift :=
    extractLsb'_eq_of_bits fun j hj => by rw [hbit]; interval_cases j <;> simp
  have reserved : (cfgWord s.cfg).extractLsb' 13 3 = 0 :=
    extractLsb'_eq_of_bits fun j hj => by rw [hbit]; interval_cases j <;> simp
  have reserved' : (cfgWord s.cfg).extractLsb' 21 11 = 0 :=
    extractLsb'_eq_of_bits fun j hj => by rw [hbit]; interval_cases j <;> simp
  rw [hread]
  exact ⟨(hbit 0).trans (by simp), (hbit 1).trans (by simp), (hbit 2).trans (by simp), (hbit 3).trans (by simp),
    (congrArg BitVec.toNat idBytes).trans (Nat.mod_eq_of_lt hid), (hbit 7).trans (by simp),
    (hbit 8).trans (by simp), (hbit 9).trans (by simp), (hbit 10).trans (by simp), (hbit 11).trans (by simp),
    (hbit 12).trans (by simp), reserved, (congrArg BitVec.toNat rowShift).trans (Nat.mod_eq_of_lt hrow),
    reserved', rfl⟩

/-! ### Accesses -/

/-- A read of any register but BUF_PTR, BUF_DATA and BAD_LOG has no side effect (R21). -/
theorem hostRead_plain {off : Byte} {s : State} (hptr : off ≠ 0x18#8) (hdata : off ≠ 0x1C#8)
    (hlog : off ≠ 0x48#8) : hostRead off s = (plainRead s off, s) := by
  simp [hostRead, hptr, hdata, hlog]

/-- The registers a host write can change (R21). -/
def writableOffsets : List Byte :=
  [0x00#8, 0x04#8, 0x08#8, 0x0C#8, 0x10#8, 0x14#8, 0x18#8, 0x1C#8, 0x28#8, 0x30#8, 0x34#8, 0x40#8]

theorem hostWrite_ignored {off : Byte} (h : off ∉ writableOffsets) (v : Reg) (s : State) :
    hostWrite off v s = s := by
  simp only [writableOffsets, List.mem_cons, List.not_mem_nil, or_false, not_or] at h
  simp [hostWrite, h]

theorem whenIdle_busy {s : State} (h : s.st.busy = true) (f : HostRegs → HostRegs) :
    whenIdle f s = refuseAccess s := if_pos h

theorem whenIdle_idle {s : State} (h : s.st.busy = false) (f : HostRegs → HostRegs) :
    whenIdle f s = { s with regs := f s.regs } := if_neg (by simp [h])

theorem hostWrite_ctrl (v : Reg) (s : State) : hostWrite 0x00 v s =
    whenIdle (fun r => { r with ctrlOp := v.setWidth 8, ctrlL := v.getLsbD 8 }) s := rfl
theorem hostWrite_addr (v : Reg) (s : State) : hostWrite 0x04 v s = whenIdle (fun r => { r with addr := v }) s := rfl
theorem hostWrite_len (v : Reg) (s : State) :
    hostWrite 0x08 v s = whenIdle (fun r => { r with len := v.setWidth 16 }) s := rfl
theorem hostWrite_faddr (v : Reg) (s : State) :
    hostWrite 0x0C v s = whenIdle (fun r => { r with faddr := v.setWidth 8 }) s := rfl
theorem hostWrite_fdata (v : Reg) (s : State) :
    hostWrite 0x10 v s = whenIdle (fun r => { r with fdata := v }) s := rfl
theorem hostWrite_wpctl (v : Reg) (s : State) :
    hostWrite 0x28 v s = whenIdle (fun r => { r with wpctl := v.getLsbD 0 }) s := rfl
theorem hostWrite_bulkStart (v : Reg) (s : State) :
    hostWrite 0x30 v s = whenIdle (fun r => { r with bulkStart := v }) s := rfl
theorem hostWrite_bulkCount (v : Reg) (s : State) :
    hostWrite 0x34 v s = whenIdle (fun r => { r with bulkCount := v }) s := rfl
theorem hostWrite_status (v : Reg) (s : State) : hostWrite 0x14 v s = writeStatus v s := rfl
theorem hostWrite_bufPtr (v : Reg) (s : State) : hostWrite 0x18 v s = writeBufPtr v s := rfl
theorem hostWrite_bufData (v : Reg) (s : State) : hostWrite 0x1C v s = writeBufData v s := rfl
theorem hostWrite_stream (v : Reg) (s : State) : hostWrite 0x40 v s = writeStream v s := rfl
theorem hostRead_bufPtr (s : State) : hostRead 0x18 s = readBufPtr s := rfl
theorem hostRead_bufData (s : State) : hostRead 0x1C s = readBufData s := rfl
theorem hostRead_badLog (s : State) : hostRead 0x48 s = readBadLog s := rfl

/-! The buffer port opens BUF_PTR and BUF_DATA to the host, or refuses them (R53). -/

theorem writeBufPtr_open {s : State} (h : bufferOpen s = true) (v : Reg) :
    writeBufPtr v s = { s with regs := { s.regs with bufPtr := v.setWidth 16 } } := if_pos h
theorem writeBufPtr_closed {s : State} (h : bufferOpen s = false) (v : Reg) :
    writeBufPtr v s = refuseAccess s := if_neg (by simp [h])
theorem readBufPtr_open {s : State} (h : bufferOpen s = true) :
    readBufPtr s = (s.regs.bufPtr.setWidth 32, s) := if_pos h
theorem readBufPtr_closed {s : State} (h : bufferOpen s = false) :
    readBufPtr s = (Config.freeHostWord s.env.frees, refuseAccess (takeFree s)) := if_neg (by simp [h])
theorem writeBufData_open {s : State} (h : bufferOpen s = true) (v : Reg) :
    writeBufData v s = bumpPtr (memWrite s.regs.bufPtr.toNat (v.setWidth 16) s) := if_pos h
theorem writeBufData_closed {s : State} (h : bufferOpen s = false) (v : Reg) :
    writeBufData v s = refuseAccess s := if_neg (by simp [h])
theorem readBufData_open {s : State} (h : bufferOpen s = true) : readBufData s =
    if s.regs.bufPtr.toNat < s.cfg.bufWords then
      ((memRead s s.regs.bufPtr.toNat).setWidth 32, bumpPtr (takeFree s))
    else (0, bumpPtr s) := if_pos h
theorem readBufData_closed {s : State} (h : bufferOpen s = false) : readBufData s = (0, refuseAccess s) :=
  if_neg (by simp [h])

theorem writeStatus_eq (v : Reg) (s : State) :
    writeStatus v s = { s with st := { s.st with ovr := s.st.ovr && !v.getLsbD 2 } } := by
  unfold writeStatus
  cases v.getLsbD 2
  · simp
  · simp

theorem readBadLog_nil {s : State} (h : s.bulk.badLog = []) : readBadLog s = (0xFFFFFFFF, s) := by
  simp [readBadLog, h]

theorem readBadLog_cons {s : State} {u : Reg} {rest : List Reg} (h : s.bulk.badLog = u :: rest) :
    readBadLog s = (u, { s with bulk := { s.bulk with badLog := rest } }) := by
  simp [readBadLog, h]

theorem readBadLog_eq (s : State) : readBadLog s =
    (s.bulk.badLog.headD 0xFFFFFFFF, { s with bulk := { s.bulk with badLog := s.bulk.badLog.tail } }) := by
  cases h : s.bulk.badLog with
  | nil =>
    have hs : { s with bulk := { s.bulk with badLog := [] } } = s := by rw [← h]
    rw [readBadLog_nil h, List.tail_nil, hs]
    rfl
  | cons u rest => exact readBadLog_cons h

/-- Settles O11. -/
theorem statusWrite : Obligations.StatusWrite := fun s v => (hostWrite_status v s).trans (writeStatus_eq v s)

/-- Settles O17: each of the two bits is judged against the state before the write. -/
theorem streamWrite : Obligations.StreamWrite := by
  intro s v
  have hreq : (hostWrite 0x40 v s).bulk.streamReq = (s.bulk.streamReq && !v.getLsbD 0) := rfl
  have habort : (hostWrite 0x40 v s).bulk.abortReq = (s.bulk.abortReq || (v.getLsbD 1 && s.bulk.active)) := rfl
  refine ⟨rfl, rfl, fun ⟨hv, _⟩ => ?_, fun h => ?_, fun ⟨hv, ha⟩ => ?_, fun h => ?_⟩
  · rw [hreq, hv, Bool.not_true, Bool.and_false]
  · rw [hreq]
    cases hr : s.bulk.streamReq
    · rfl
    · simpa [hr] using h
  · rw [habort, hv, ha, Bool.and_true, Bool.or_true]
  · have : (v.getLsbD 1 && s.bulk.active) = false := by simpa using h
    rw [habort, this, Bool.or_false]

/-- Settles O18. -/
theorem badLogRead : Obligations.BadLogRead := by
  intro s
  rw [hostRead_badLog]
  exact ⟨readBadLog_nil, fun _ _ => readBadLog_cons⟩

/-- Settles O9: every operation is one request, and a request made while BUSY = 1 is refused. -/
theorem busyRequestRefused : Obligations.BusyRequestRefused := by
  intro i s hbusy
  obtain ⟨body, hexec⟩ := exec_eq_request i
  rw [hexec, request, if_pos hbusy]

theorem statusWord_resetOf (c : Config) : statusWord (resetOf c) = 0 := by
  simp [statusWord, resetOf, bitAt, resultCode, sessionCode]

theorem bulkInfoWord_resetOf (c : Config) : bulkInfoWord (resetOf c) = 0 := by
  simp [bulkInfoWord, resetOf, bitAt, resultCode]

theorem ctrlWord_resetOf (c : Config) : ctrlWord (resetOf c) = 0 := by
  simp [ctrlWord, resetOf, bitAt]

/-- Settles O7: every entry of the table is what `resetOf` writes there. -/
theorem resetValues : Obligations.ResetValues := by
  intro c
  exact ⟨ctrlWord_resetOf c, rfl, rfl, rfl, rfl, statusWord_resetOf c, rfl, rfl, fun _ => rfl, fun _ => rfl,
    rfl, rfl, rfl, rfl, rfl, rfl, rfl, bulkInfoWord_resetOf c, rfl, rfl, rfl, rfl, rfl, rfl, rfl, rfl, rfl, rfl,
    rfl, rfl, rfl, rfl, rfl, rfl, rfl, rfl, rfl, rfl, rfl, rfl, rfl, rfl, rfl, rfl⟩

/-- Settles O4: the fetch hands the decoded operation on. -/
theorem stepRunsDecoded : Obligations.StepRunsDecoded := by
  intro s w i r hwf hin hdec
  have hfetch : fetch s = .run i (setInputs r s) := by
    simp [fetch, hwf, hin, accessAligned, fetchAccess, ctrlWritten, hdec]
  rw [step, hfetch]

/-- Settles O10: while BUSY = 1 the buffer port is open exactly while STREAM_REQ = 1. -/
theorem accessWhileBusy : Obligations.AccessWhileBusy := by
  intro s v hbusy
  have hport : bufferOpen s = s.bulk.streamReq := by simp [bufferOpen, hbusy]
  refine ⟨fun off hoff => ?_, hostWrite_status v s, hostWrite_stream v s, fun hreq => ?_, fun hreq => ?_,
    fun off hoff => hostWrite_ignored hoff v s, fun off hptr hdata hlog => hostRead_plain hptr hdata hlog,
    readBadLog_eq s⟩
  · have hrefused : ∀ f, whenIdle f s = refuseAccess s := whenIdle_busy hbusy
    simp only [List.mem_cons, List.not_mem_nil, or_false] at hoff
    obtain rfl | rfl | rfl | rfl | rfl | rfl | rfl | rfl := hoff
    · exact (hostWrite_ctrl v s).trans (hrefused _)
    · exact (hostWrite_addr v s).trans (hrefused _)
    · exact (hostWrite_len v s).trans (hrefused _)
    · exact (hostWrite_faddr v s).trans (hrefused _)
    · exact (hostWrite_fdata v s).trans (hrefused _)
    · exact (hostWrite_wpctl v s).trans (hrefused _)
    · exact (hostWrite_bulkStart v s).trans (hrefused _)
    · exact (hostWrite_bulkCount v s).trans (hrefused _)
  · rw [hreq] at hport
    rw [hostWrite_bufPtr, hostWrite_bufData, hostRead_bufData, hostRead_bufPtr, writeBufPtr_closed hport,
      writeBufData_closed hport, readBufData_closed hport, readBufPtr_closed hport]
    exact ⟨rfl, rfl, rfl, rfl, rfl, rfl⟩
  · rw [hreq] at hport
    rw [hostWrite_bufPtr, hostWrite_bufData, hostRead_bufData, hostRead_bufPtr, writeBufPtr_open hport,
      writeBufData_open hport, readBufData_open hport, readBufPtr_open hport]
    refine ⟨rfl, rfl, rfl, rfl, ?_, ?_⟩ <;> split <;> rfl

/-- The low k bits of a register (R20). -/
theorem setWidth_setWidth_eq_and (k : Nat) (hk : k ≤ 32) (v : Reg) :
    (v.setWidth k).setWidth 32 = v &&& BitVec.ofNat 32 (2 ^ k - 1) := by
  apply BitVec.eq_of_toNat_eq
  have hlt : 2 ^ k - 1 < 2 ^ 32 := by
    have := Nat.pow_le_pow_right (n := 2) (by decide) hk
    omega
  have hle : v.toNat % 2 ^ k < 2 ^ 32 := (Nat.mod_le _ _).trans_lt v.isLt
  rw [BitVec.toNat_and, BitVec.toNat_ofNat, Nat.mod_eq_of_lt hlt, Nat.and_two_pow_sub_one_eq_mod,
    BitVec.toNat_setWidth, BitVec.toNat_setWidth, Nat.mod_eq_of_lt hle]

theorem ctrlWord_eq_and {s : State} {v : Reg} (hop : s.regs.ctrlOp = v.setWidth 8)
    (hl : s.regs.ctrlL = v.getLsbD 8) : ctrlWord s = v &&& 0x1FF := by
  have h9 : ctrlWord s = (v.setWidth 9).setWidth 32 := by
    apply BitVec.eq_of_getLsbD_eq
    intro i hi
    rw [ctrlWord, BitVec.getLsbD_or, getLsbD_bitAt _ (by decide), hop, hl]
    simp only [BitVec.getLsbD_setWidth, hi]
    by_cases h8 : i = 8
    · simp [h8]
    · simp [h8, show i < 9 ↔ i < 8 by omega]
  exact h9.trans (setWidth_setWidth_eq_and 9 (by decide) v)

theorem bitAt_zero_eq_and (v : Reg) : bitAt (v.getLsbD 0) 0 = v &&& 1 := by
  have h1 : bitAt (v.getLsbD 0) 0 = (v.setWidth 1).setWidth 32 := by
    apply BitVec.eq_of_getLsbD_eq
    intro i hi
    rw [getLsbD_bitAt _ (by decide)]
    simp only [BitVec.getLsbD_setWidth, hi]
    by_cases h0 : i = 0
    · simp [h0]
    · simp [h0, show ¬ i < 1 by omega]
  exact h1.trans (setWidth_setWidth_eq_and 1 (by decide) v)

theorem plainRead_above {off : Byte} (h : 0x55 ≤ off.toNat) (s : State) : plainRead s off = 0 := by
  have hne : ∀ x : Byte, x.toNat < 0x55 → off ≠ x := fun x hx e => by subst e; omega
  simp [plainRead, hne]

/-- Settles O16: while idle a request register is written, and reads as, what its write stores. -/
theorem hostRegisters : Obligations.HostRegisters := by
  intro s v hidle wr
  have hwrite : ∀ f, whenIdle f s = { s with regs := f s.regs } := whenIdle_idle hidle
  have hport : bufferOpen s = true := by simp [bufferOpen, hidle]
  have ctrl := (hostWrite_ctrl v s).trans (hwrite _)
  have addr := (hostWrite_addr v s).trans (hwrite _)
  have len := (hostWrite_len v s).trans (hwrite _)
  have faddr := (hostWrite_faddr v s).trans (hwrite _)
  have fdata := (hostWrite_fdata v s).trans (hwrite _)
  have bufPtr := (hostWrite_bufPtr v s).trans (writeBufPtr_open hport v)
  have wpctl := (hostWrite_wpctl v s).trans (hwrite _)
  have bulkStart := (hostWrite_bulkStart v s).trans (hwrite _)
  have bulkCount := (hostWrite_bulkCount v s).trans (hwrite _)
  have hread : ∀ {off t x}, wr off = t → (hostRead off t).1 = x →
      wr off = t ∧ (hostRead off (wr off)).1 = x :=
    fun h hx => ⟨h, by rw [h]; exact hx⟩
  have low8 := setWidth_setWidth_eq_and 8 (by decide)
  have low16 := setWidth_setWidth_eq_and 16 (by decide)
  refine ⟨hread ctrl (ctrlWord_eq_and rfl rfl), hread addr rfl, hread len (low16 v),
    hread faddr (low8 v), hread fdata rfl, hread bufPtr ?_,
    ⟨wpctl, ?_, ?_⟩, hread bulkStart rfl, hread bulkCount rfl, ⟨rfl, rfl, rfl, rfl, rfl, rfl, rfl, rfl⟩,
    fun off hoff => hostWrite_ignored ?_ v s, fun off hoff => ⟨?_, hostWrite_ignored ?_ v s⟩⟩
  · rw [hostRead_bufPtr, readBufPtr_open (by simp [bufferOpen, hidle])]
    exact low16 v
  · show (hostRead 0x28 (hostWrite 0x28 v s)).1 = _
    rw [wpctl]
    exact bitAt_zero_eq_and v
  · show wpPin (hostWrite 0x28 v s) = _
    rw [wpctl]
    rfl
  · revert off
    decide
  · have hne : ∀ x : Byte, x.toNat < 0x55 → off ≠ x := fun x hx e => by subst e; omega
    rw [hostRead_plain (hne _ (by decide)) (hne _ (by decide)) (hne _ (by decide)), plainRead_above hoff]
  · have hlow : ∀ x ∈ writableOffsets, x.toNat < 0x55 := by decide
    exact fun hmem => absurd hoff (Nat.not_le_of_lt (hlow off hmem))

end Sys2Proof.Machine

/-! Operations the retry controller issues (R266, R300): how they start and end, READ_ID (R170), and the
operations with a ready wait and a final status read (R210, R215). -/

namespace Sys2Proof.Machine

/-! ### How a sequence ends -/

/-- The micro-operations kk bring s to t and end the operation there with result r. -/
def Ends (N : Nat) (kk : List Micro) (s t : State) (r : Result) : Prop :=
  ∀ op, ∃ n ≤ N, Reach n (atK op kk s) (endOp r t)

theorem Piece.ends {N : Nat} {kk : List Micro} {s t : State} (h : Piece N kk s t) :
    Ends (N + 1) kk s t .success := fun op => by
  obtain ⟨n, hn, g⟩ := h op []
  rw [List.append_nil] at g
  exact ⟨n + 1, by omega, g.trans (reach_end op t)⟩

theorem Stops.ends {N : Nat} {kk : List Micro} {s t : State} {r : Result} (h : Stops N kk s t r) :
    Ends N kk s t r := fun op => by
  obtain ⟨n, hn, g⟩ := h op []
  rw [List.append_nil] at g
  exact ⟨n, hn, g⟩

theorem Ends.mono {N M : Nat} {kk : List Micro} {s t : State} {r : Result} (h : Ends N kk s t r) (hNM : N ≤ M) :
    Ends M kk s t r := fun op => by
  obtain ⟨n, hn, g⟩ := h op
  exact ⟨n, hn.trans hNM, g⟩

/-! ### Observations compose over more than a run of cycles -/

/-- Where the cycles es were observed, the device's answers are those of a run of cycles: every `_after` lemma
speaks of s and t. -/
theorem Observed.span {s t : State} {es : List Event} {m : Nat} (h : Observed s t es m) (hc : t.cfg = s.cfg) :
    Span { t with cfg := s.cfg, pins := s.pins
                  env := { s.env with inputs := t.env.inputs, reads := t.env.reads } } t es m :=
  ⟨h, hc, rfl, rfl, rfl, rfl, rfl, rfl, rfl, rfl⟩

/-- LAST_SR after a later observation, where it already is that of one (R50). -/
theorem lastSrAt_after {s t : State} {es : List Event} {m k : Nat} (h : Observed s t es m) (hc : t.cfg = s.cfg)
    (hsr : t.st.lastSr = lastSrAt s k) (n : Nat) : lastSrAt t n = lastSrAt s (m + n) := by
  have hbyte : answerByte t n = answerByte s (m + n) := answerByte_after (h.span hc) n
  unfold lastSrAt
  rw [hc, hbyte, hsr]
  cases hrb : s.cfg.rbSource <;> simp [lastSrAt, hrb]

theorem idStored_after {s t : State} {es : List Event} {m : Nat} (h : Span s t es m) (b : Nat) (lo hi : Reg) :
    IdStored t b lo hi ↔ IdStored s (m + b) lo hi := by
  simp [IdStored, answerByte_after h, h.cfg, Nat.add_assoc]

theorem readIdEvents_after {s t : State} {es : List Event} {m : Nat} (h : Span s t es m) (b : Nat) :
    readIdEvents t b = readIdEvents s (m + b) := by
  simp [readIdEvents, sampleEvents_after h, readEvents_after h, h.cfg, Nat.add_assoc]

/-! ### The ready wait and the status check -/

theorem readyAfter_or_never (s : State) (b : Nat) : (∃ j, ReadyAfter s b j) ∨ NeverReady s b := by
  by_cases h : ∃ j, j ≤ s.cfg.thrFlash.toNat ∧ readyAt s (b + j) = true
  · have hmin := Nat.find_spec h
    refine .inl ⟨Nat.find h, hmin.1, fun i hi => ?_, hmin.2⟩
    have := Nat.find_min h hi
    have hle := hmin.1
    simp only [not_and, Bool.not_eq_true] at this
    exact this (by omega)
  · refine .inr fun i hi => ?_
    by_contra hr
    exact h ⟨i, hi, by simpa using hr⟩

theorem ReadyAfter.unique {s : State} {b i j : Nat} (hi : ReadyAfter s b i) (hj : ReadyAfter s b j) : i = j := by
  obtain ⟨-, hi1, hi2⟩ := hi
  obtain ⟨-, hj1, hj2⟩ := hj
  by_contra hne
  rcases Nat.lt_or_gt_of_ne hne with h | h
  · simp [hj1 i h] at hi2
  · simp [hi1 j h] at hj2

theorem ReadyAfter.not_never {s : State} {b j : Nat} (h : ReadyAfter s b j) : ¬ NeverReady s b := fun hn => by
  obtain ⟨hj, -, hr⟩ := h
  simp [hn j hj] at hr

/-- The wait, its timeout line and the status check. -/
def seqWaitStatus (c : Config) (timeout failed : Result) : List Micro :=
  seqWaitReady c ++ ([.raiseUnlessReady timeout] ++ seqStatusCheck failed)

theorem ends_waitStatus_ready {s : State} {j : Nat} (h : ReadyAfter s 0 j) (timeout failed : Result) :
    ∃ t, Ends (5 * j + 13) (seqWaitStatus s.cfg timeout failed) s t
        (if statusFailed (answerByte s (j + 1)) then failed else .success)
      ∧ Span s t (pollEvents s 0 (j + 1) ++ statusEvents s (j + 1)) (j + 1 + 1) ∧ Still s t
      ∧ t.st.lastSr = answerByte s (j + 1) := by
  obtain ⟨u, hwait, hstill, -, hobs⟩ := does_waitReady j s h
  have hpass := Piece.raise_ready timeout hobs
  have hbyte : answerByte u 0 = answerByte s (j + 1) := answerByte_after hwait.span 0
  have hev : statusEvents u 0 = statusEvents s (j + 1) := statusEvents_after hwait.span 0
  rw [← hbyte, ← hev]
  cases hf : statusFailed (answerByte u 0) with
  | false =>
    obtain ⟨t, hcheck, hstill', hsr⟩ := does_statusCheck failed u hf
    exact ⟨t, (hwait.piece.append (hpass.append hcheck.piece)).ends.mono (by omega),
      hwait.span.trans hcheck.span, hstill.trans hstill', hsr⟩
  | true =>
    obtain ⟨t, hcheck, hspan, hstill', hsr⟩ := stops_statusCheck failed u hf
    exact ⟨t, (hwait.piece.append_stops (hpass.append_stops hcheck)).ends.mono (by omega),
      hwait.span.trans hspan, hstill.trans hstill', hsr⟩

theorem ends_waitStatus_never {s : State} (h : NeverReady s 0) (timeout failed : Result) :
    ∃ t, Ends (5 * s.cfg.thrFlash.toNat + 7) (seqWaitStatus s.cfg timeout failed) s t timeout
      ∧ Span s t (pollEvents s 0 (s.cfg.thrFlash.toNat + 1)) (s.cfg.thrFlash.toNat + 1) ∧ Still s t
      ∧ t.st.lastSr = lastSrAt s s.cfg.thrFlash.toNat := by
  obtain ⟨t, hwait, hstill, hsr, hobs⟩ := does_waitTimeout s h
  have hraise := (Stops.raise timeout hobs).early (seqStatusCheck failed)
  exact ⟨t, (hwait.piece.append_stops hraise).ends.mono (by omega), hwait.span, hstill, hsr⟩

theorem Piece.append_ends {N M : Nat} {k1 k2 : List Micro} {s t u : State} {r : Result} (h : Piece N k1 s t)
    (g : Ends M k2 t u r) : Ends (N + M) (k1 ++ k2) s u r := fun op => by
  obtain ⟨n, hn, h1⟩ := h op k2
  obtain ⟨m, hm, g1⟩ := g op
  exact ⟨n + m, by omega, h1.trans g1⟩

/-! ### READ_ID (R170) -/

theorem getD_of_take_eq {l : List Byte} {n i : Nat} {f : Nat → Byte} (h : l.take n = (List.range n).map f)
    (hi : i < n) : l.getD i 0 = f i := by
  have : l[i]? = some (f i) := by rw [← List.getElem?_take_of_lt hi, h]; simp [hi]
  simp [List.getD, this]

/-- READ_ID stores the bytes it has read, 0 past ID_BYTES (R31). -/
theorem idStored_storeId {s t : State} {b : Nat} (hcfg : t.cfg = s.cfg) (hn : s.cfg.idBytes ≤ 6)
    (htmp : t.seq.tmp.take s.cfg.idBytes = (List.range s.cfg.idBytes).map fun i => answerByte s (b + i)) :
    IdStored s b (storeId t).ids.idLo (storeId t).ids.idHi := by
  intro i hi
  have hid : ∀ k, idByteRead t.cfg t.seq.tmp k = if k < s.cfg.idBytes then answerByte s (b + k) else 0 := by
    intro k
    rw [idByteRead, hcfg]
    split
    · exact getD_of_take_eq htmp ‹_›
    · rfl
  simp only [storeId, idByteOf, hid]
  by_cases h4 : i < 4
  · rw [if_pos h4, byteOf_pack4 _ _ _ _ _ h4]
    interval_cases i <;> rfl
  · rw [if_neg h4, byteOf_pack2 _ _ _ (by omega)]
    interval_cases i <;> simp <;> omega

/-- READ_ID of a device that shows ready: but for ID_LO and ID_HI, a run of cycles. -/
theorem does_readId {s : State} (hready : readyAt s 0 = true) (hn : s.cfg.idBytes ≤ 6) (cur : Cur) :
    ∃ t, Piece 22 (seqReadId s.cfg cur) s t ∧ Span { s with ids := t.ids } t (readIdEvents s 0) (1 + s.cfg.idBytes)
      ∧ Still s t ∧ t.st.lastSr = lastSrAt s 0 ∧ IdStored s 1 t.ids.idLo t.ids.idHi
      ∧ t.ids.capLo = s.ids.capLo ∧ t.ids.capHi = s.ids.capHi := by
  obtain ⟨t1, busy, still1, sr1⟩ := does_busyCheck s hready
  obtain ⟨t2, cmd, quiet2⟩ := does_cmd 0x90 t1
  obtain ⟨t3, addr, quiet3⟩ := does_addrs [0x00] t2
  obtain ⟨t4, read, still4, sr4, htmp⟩ := does_readBytes 0 s.cfg.idBytes t3 rfl
  have upto := (busy.append cmd).append addr
  have run := upto.append read
  have hev : readEvents t3 0 s.cfg.idBytes = readEvents s 1 s.cfg.idBytes := readEvents_after upto.span 0 _
  have hspan : Span s t4 (readIdEvents s 0) (1 + s.cfg.idBytes) := by
    have := run.span
    rw [hev] at this
    simpa [readIdEvents, addrEvents] using this
  have hids : t4.ids = s.ids := hspan.ids
  have hstill : Still s t4 := still1.trans (quiet2.still.trans (quiet3.still.trans still4))
  refine ⟨storeId t4, ?_, ⟨hspan.obs, hspan.cfg, hspan.bulk, hspan.regs, rfl, hspan.st, hspan.resume, hspan.cur,
    hspan.inputs, hspan.reads⟩, ?_, ?_, ?_, by rw [← hids]; rfl, by rw [← hids]; rfl⟩
  · have hpiece := run.piece.append (Piece.act .storeId t4)
    intro op k
    obtain ⟨n, hle, h⟩ := hpiece op k
    simp only [List.length_cons, List.length_nil] at hle
    exact ⟨n, by omega, h⟩
  · exact ⟨hstill.bufA, hstill.bufC, hstill.frees, hstill.wcnt⟩
  · exact sr4.trans (quiet3.lastSr.trans (quiet2.lastSr.trans sr1))
  · refine idStored_storeId hspan.cfg hn ?_
    have hbyte : ∀ i, answerByte t3 i = answerByte s (1 + i) := answerByte_after upto.span
    simpa [hbyte] using htmp

/-! ### An operation issued by the retry controller (R266, R300) -/

theorem endOp_bufA (r : Result) (s : State) : (endOp r s).bufA = s.bufA := by
  unfold endOp
  dsimp only
  split <;> rfl

theorem endOp_bufC (r : Result) (s : State) : (endOp r s).bufC = s.bufC := by
  unfold endOp
  dsimp only
  split <;> rfl

theorem endOp_ids (r : Result) (s : State) : (endOp r s).ids = s.ids := by
  unfold endOp
  dsimp only
  split <;> rfl

/-- The request the retry controller issues is latched, control to return to p. -/
def latched (cur : Cur) (p : RetryPt) (s : State) : State :=
  { s with seq := { s.seq with cur := cur, resume := some p } }

theorem endOp_issuer {r : Result} {s : State} {p : RetryPt} (h : s.seq.resume = some p) :
    endOp r s = { s with
      pins := { busRest s.pins with ceN := true }
      bulk := { s.bulk with lastResult := r }
      seq := { s.seq with pc := .bulk p, resume := none } } := by
  simp [endOp, h]

/-- From s, in at most N micro-operations, the retry controller has issued an operation in phase x, it has
ended with result r after the cycles es, and the retry controller stands at p in t. -/
structure IssueRun (N : Nat) (s t : State) (p : RetryPt) (x : Phase) (r : Result) (es : List Event) (used : Nat)
    (sr : Byte) : Prop where
  reach : ∃ n ≤ N, Reach n s t
  issued : Issued { s with ids := t.ids } t p r es used sr
  phase : t.bulk.phase = x

/-- The move at which the retry controller, in s, issues an operation that passes the checks. -/
structure Issues (s : State) (cur : Cur) (body : Config → Cur → List Micro) (p : RetryPt) (x : Phase) : Prop where
  moves : moves s = true
  tick : tick s = issue cur body p (setPhase x s)
  check : checkRequest s.cfg s.st.session cur = none

theorem Issues.run {s t : State} {cur : Cur} {body : Config → Cur → List Micro} {p : RetryPt} {x : Phase}
    {N used : Nat} {r : Result} {es : List Event} (h : Issues s cur body p x)
    (he : Ends N (body s.cfg cur) (latched cur p (setPhase x s)) t r)
    (hs : Span { latched cur p (setPhase x s) with ids := t.ids } t es used) :
    IssueRun (N + 2) s (endOp r t) p x r es used t.st.lastSr := by
  have hres : t.seq.resume = some p := hs.resume
  obtain ⟨n, hn, g⟩ := he cur.op
  have hcheck : Reach 1 (issue cur body p (setPhase x s))
      (atK cur.op (body s.cfg cur) (latched cur p (setPhase x s))) :=
    reach_check (s := latched cur p (setPhase x s)) (op := cur.op) (k := body s.cfg cur) h.check
  have hstart := reach_tick h.moves
  rw [h.tick] at hstart
  have hreach := (hstart.trans hcheck).trans g
  obtain ⟨obs, cfg, bulk, regs, -, st, -, -, inputs, reads⟩ := hs
  rw [endOp_issuer hres] at hreach ⊢
  refine ⟨⟨_, by omega, hreach⟩, ⟨obs, cfg, regs, rfl, st, ?_, rfl, rfl, rfl, rfl, rfl, rfl, rfl, inputs, reads⟩, ?_⟩
  · rw [bulk]; rfl
  · rw [bulk]; rfl

theorem IssueRun.issued_same {N : Nat} {s t : State} {p : RetryPt} {x : Phase} {r : Result} {es : List Event}
    {used : Nat} {sr : Byte} (h : IssueRun N s t p x r es used sr) (hids : t.ids = s.ids) :
    Issued s t p r es used sr := by
  have := h.issued
  rwa [hids] at this

/-- The same for an operation that stores no identity. -/
theorem Issues.run_span {s t : State} {cur : Cur} {body : Config → Cur → List Micro} {p : RetryPt} {x : Phase}
    {N used : Nat} {r : Result} {es : List Event} (h : Issues s cur body p x)
    (he : Ends N (body s.cfg cur) (latched cur p (setPhase x s)) t r)
    (hs : Span (latched cur p (setPhase x s)) t es used) :
    IssueRun (N + 2) s (endOp r t) p x r es used t.st.lastSr ∧ (endOp r t).ids = s.ids := by
  have hids : t.ids = s.ids := hs.ids
  refine ⟨h.run he ?_, (endOp_ids r t).trans hids⟩
  rw [hids]
  exact hs

/-- What an operation that stores no data leaves of the buffers. -/
def BuffersKept (s t : State) : Prop := t.bufA = s.bufA ∧ t.bufC = s.bufC

theorem BuffersKept.trans {s t u : State} (h : BuffersKept s t) (g : BuffersKept t u) : BuffersKept s u :=
  ⟨g.1.trans h.1, g.2.trans h.2⟩

/-- An issued READ_ID of a device that shows ready (R170). -/
theorem Issues.readId {s : State} {cur : Cur} {p : RetryPt} {x : Phase} (h : Issues s cur seqReadId p x)
    (hready : readyAt s 0 = true) (hn : s.cfg.idBytes ≤ 6) :
    ∃ t, IssueRun 25 s t p x .success (readIdEvents s 0) (1 + s.cfg.idBytes) (lastSrAt s 0) ∧ BuffersKept s t
      ∧ IdStored s 1 t.ids.idLo t.ids.idHi ∧ t.ids.capLo = s.ids.capLo ∧ t.ids.capHi = s.ids.capHi := by
  obtain ⟨t, hpiece, hspan, hstill, hsr, hid, hcapLo, hcapHi⟩ :=
    does_readId (s := latched cur p (setPhase x s)) hready hn cur
  have hrun := h.run hpiece.ends hspan
  rw [hsr] at hrun
  refine ⟨endOp .success t, hrun, ⟨(endOp_bufA _ t).trans hstill.bufA, (endOp_bufC _ t).trans hstill.bufC⟩, ?_, ?_, ?_⟩
    <;> rw [endOp_ids]
  · exact hid
  · exact hcapLo
  · exact hcapHi

/-- An issued operation with a busy check, of a device that shows busy (R302). -/
theorem Issues.busy {s : State} {cur : Cur} {body : Config → Cur → List Micro} {p : RetryPt} {x : Phase}
    {rest : List Micro} (h : Issues s cur body p x) (hq : body s.cfg cur = seqBusyCheck s.cfg ++ rest)
    (hbusy : readyAt s 0 = false) :
    ∃ t, IssueRun 7 s t p x .busy (sampleEvents s 0) 1 (lastSrAt s 0) ∧ t.ids = s.ids ∧ BuffersKept s t := by
  obtain ⟨t, hstop, hspan, hstill, hsr, -⟩ := stops_busyCheck (latched cur p (setPhase x s)) hbusy
  have hends : Ends 5 (body s.cfg cur) (latched cur p (setPhase x s)) t .busy := by
    rw [hq]
    exact (hstop.early rest).ends
  obtain ⟨hrun, hids⟩ := h.run_span hends hspan
  rw [hsr] at hrun
  exact ⟨endOp .busy t, hrun, hids, (endOp_bufA _ t).trans hstill.bufA, (endOp_bufC _ t).trans hstill.bufC⟩

/-- The move issues an operation that makes a busy check, the cycles es in the micro-operations kk, which draw
no answer and store nothing, a ready wait and a status check. -/
structure IssuesWait (s : State) (cur : Cur) (body : Config → Cur → List Micro) (p : RetryPt) (x : Phase)
    (failed : Result) (kk : List Micro) (es : List Event) (N : Nat) : Prop extends Issues s cur body p x where
  seq : body s.cfg cur = seqBusyCheck s.cfg ++ (kk ++ seqWaitStatus s.cfg .operationTimeout failed)
  load : ∀ u : State, u.cfg = s.cfg → u.bufA = s.bufA → u.env.frees = s.env.frees →
    ∃ t, Does N kk u t es 0 ∧ BuffersKept u t ∧ t.st.lastSr = u.st.lastSr

section IssuesWait

variable {s : State} {cur : Cur} {body : Config → Cur → List Micro} {p : RetryPt} {x : Phase}
  {failed : Result} {kk : List Micro} {es : List Event} {N : Nat}

/-- The busy check passed and the cycles es made, the wait begins. -/
theorem IssuesWait.loaded (h : IssuesWait s cur body p x failed kk es N) (hready : readyAt s 0 = true) :
    ∃ u, Does (5 + N) (seqBusyCheck s.cfg ++ kk) (latched cur p (setPhase x s)) u (sampleEvents s 0 ++ es) 1
      ∧ BuffersKept s u ∧ u.st.lastSr = lastSrAt s 0 := by
  obtain ⟨t, busy, still, sr⟩ := does_busyCheck (latched cur p (setPhase x s)) hready
  obtain ⟨u, load, ⟨hA, hC⟩, sr'⟩ := h.load t busy.span.cfg still.bufA still.frees
  exact ⟨u, busy.append load, ⟨hA.trans still.bufA, hC.trans still.bufC⟩, sr'.trans sr⟩

theorem IssuesWait.ready (h : IssuesWait s cur body p x failed kk es N) (hready : readyAt s 0 = true) {j : Nat}
    (hj : ReadyAfter s 1 j) :
    ∃ t, IssueRun (5 + N + (5 * j + 13) + 2) s t p x
        (if statusFailed (answerByte s (j + 2)) then failed else .success)
        (sampleEvents s 0 ++ es ++ pollEvents s 1 (j + 1) ++ statusEvents s (j + 2)) (j + 3)
        (answerByte s (j + 2)) ∧ t.ids = s.ids ∧ BuffersKept s t := by
  obtain ⟨u, hload, ⟨hA, hC⟩, -⟩ := h.loaded hready
  have hcfg : u.cfg = s.cfg := hload.span.cfg
  have hbyte : answerByte u (j + 1) = answerByte s (1 + (j + 1)) := answerByte_after hload.span _
  have hpoll : pollEvents u 0 (j + 1) = pollEvents s 1 (j + 1) := pollEvents_after hload.span 0 _
  have hstatus : statusEvents u (j + 1) = statusEvents s (1 + (j + 1)) := statusEvents_after hload.span _
  obtain ⟨t, hends, hspan, hstill, hsr⟩ :=
    ends_waitStatus_ready ((readyAfter_after hload.span 0 j).2 hj) .operationTimeout failed
  rw [hbyte] at hends hsr
  rw [hpoll, hstatus] at hspan
  rw [hcfg] at hends
  have hall := hload.piece.append_ends hends
  rw [List.append_assoc, ← h.seq] at hall
  obtain ⟨hrun, hids⟩ := h.run_span hall (hload.span.trans hspan)
  rw [hsr] at hrun
  refine ⟨_, ?_, hids, (endOp_bufA _ t).trans (hstill.bufA.trans hA), (endOp_bufC _ t).trans (hstill.bufC.trans hC)⟩
  have e2 : 1 + (j + 1) = j + 2 := by omega
  have e3 : 1 + (j + 1 + 1) = j + 3 := by omega
  rw [e2, e3, ← List.append_assoc] at hrun
  rw [e2]
  exact hrun

theorem IssuesWait.never (h : IssuesWait s cur body p x failed kk es N) (hready : readyAt s 0 = true)
    (hn : NeverReady s 1) : let m := s.cfg.thrFlash.toNat
    ∃ t, IssueRun (5 + N + (5 * m + 7) + 2) s t p x .operationTimeout
        (sampleEvents s 0 ++ es ++ pollEvents s 1 (m + 1)) (m + 2) (lastSrAt s (m + 1))
      ∧ t.ids = s.ids ∧ BuffersKept s t := by
  obtain ⟨u, hload, ⟨hA, hC⟩, hsr0⟩ := h.loaded hready
  have hcfg : u.cfg = s.cfg := hload.span.cfg
  have hpoll : ∀ k, pollEvents u 0 k = pollEvents s 1 k := pollEvents_after hload.span 0
  have hlast : ∀ k, lastSrAt u k = lastSrAt s (1 + k) := lastSrAt_after hload.span.obs hcfg hsr0
  obtain ⟨t, hends, hspan, hstill, hsr⟩ :=
    ends_waitStatus_never ((neverReady_after hload.span 0).2 hn) .operationTimeout failed
  rw [hpoll, hcfg] at hspan
  rw [hcfg, hlast] at hsr
  rw [hcfg] at hends
  have hall := hload.piece.append_ends hends
  rw [List.append_assoc, ← h.seq] at hall
  obtain ⟨hrun, hids⟩ := h.run_span hall (hload.span.trans hspan)
  rw [hsr, Nat.add_comm 1, Nat.add_comm 1] at hrun
  exact ⟨_, hrun, hids, (endOp_bufA _ t).trans (hstill.bufA.trans hA), (endOp_bufC _ t).trans (hstill.bufC.trans hC)⟩

/-- Whatever the device answers, one of the three ends is reached. -/
theorem IssuesWait.settled (h : IssuesWait s cur body p x failed kk es N) :
    ∃ k t, drive k s = t ∧ t.bufA = s.bufA ∧ t.bufC = s.bufC ∧ t.bulk.phase = x
      ∧ IssuedWaitStatus s t p failed es := by
  cases h0 : readyAt s 0 with
  | false =>
    obtain ⟨t, hrun, hids, hA, hC⟩ := h.toIssues.busy h.seq h0
    obtain ⟨n, -, hreach⟩ := hrun.reach
    refine ⟨n, t, hreach 0, hA, hC, hrun.phase, fun _ => hrun.issued_same hids, ?_, ?_⟩
    · simp [h0]
    · simp [h0]
  | true =>
    obtain ⟨j, hj⟩ | hn := readyAfter_or_never s 1
    · obtain ⟨t, hrun, hids, hA, hC⟩ := h.ready h0 hj
      obtain ⟨n, -, hreach⟩ := hrun.reach
      refine ⟨n, t, hreach 0, hA, hC, hrun.phase, by simp [h0], fun i _ hi => ?_,
        fun _ hn => absurd hn hj.not_never⟩
      rw [hi.unique hj]
      exact hrun.issued_same hids
    · obtain ⟨t, hrun, hids, hA, hC⟩ := h.never h0 hn
      obtain ⟨n, -, hreach⟩ := hrun.reach
      exact ⟨n, t, hreach 0, hA, hC, hrun.phase, by simp [h0], fun j _ hj => absurd hn hj.not_never,
        fun _ _ => hrun.issued_same hids⟩

end IssuesWait

end Sys2Proof.Machine

/-! Bulk runs (R261 to R279): the capture, a validation that passes, the Execute of a write and of an erase unit,
and the runs made of them. -/

namespace Sys2Proof.Machine

/-! ### The retry controller's moves -/

theorem reach_retryStep {s : State} {p : RetryPt} (hpc : s.seq.pc = .bulk p) (hfill : p ≠ .fillHold)
    (hdrain : p ≠ .drainHold) : Reach 1 s (retryStep p s) := by
  have hm : moves s = true := by
    unfold moves
    rw [hpc]
    cases p with
    | fillHold => exact absurd rfl hfill
    | drainHold => exact absurd rfl hdrain
    | _ => rfl
  have h := reach_tick hm
  rwa [tick, hpc] at h

theorem idMatches_iff (c : Config) (lo hi : Reg) (f : Nat → Byte) :
    idMatches c lo hi f = true ↔ ∀ i < c.idBytes, idByteOf lo hi i = f i := by
  simp [idMatches]

/-- The stored identity is the one read (R31). -/
theorem IdStored.byte {s : State} {b : Nat} {lo hi : Reg} (h : IdStored s b lo hi) (hn : s.cfg.idBytes ≤ 6) {i : Nat}
    (hk : i < s.cfg.idBytes) : idByteOf lo hi i = answerByte s (b + i) := by
  rw [h i (by omega), if_pos hk]

/-- The state after a capture that found the expected identity (R262). -/
def captureDone (s : State) : State :=
  goTo .loopHead
    { s with ids := { s.ids with capLo := s.ids.idLo, capHi := s.ids.idHi }
             st := { s.st with idcap := true }
             bulk := { s.bulk with progress := if s.bulk.count = 0 then 100 else s.bulk.progress } }

theorem captureCheck_expected {s : State} (hr : s.bulk.lastResult = .success) (hid : idIsExpected s = true) :
    captureCheck s = captureDone s := by
  simp [captureCheck, hr, hid, captureDone]

theorem validateCheck_captured {s : State} (hr : s.bulk.lastResult = .success) (hid : idIsCaptured s = true) :
    validateCheck s = goTo .execute s := by
  simp [validateCheck, hr, hid]

theorem loopHead_done {s : State} (h : s.bulk.left = 0) : loopHead s = goTo .finish s := if_pos h

theorem loopHead_fill {s : State} (hl : s.bulk.left ≠ 0) (ha : s.bulk.abortReq = false)
    (hm : s.bulk.mode = .write) : loopHead s = requestStream true .fill .fillHold s := by
  rw [loopHead, if_neg hl, ha, if_neg Bool.false_ne_true, if_pos hm]

theorem loopHead_attempt {s : State} (hl : s.bulk.left ≠ 0) (ha : s.bulk.abortReq = false)
    (hm : s.bulk.mode ≠ .write) : loopHead s = beginAttempts s := by
  rw [loopHead, if_neg hl, ha, if_neg Bool.false_ne_true, if_neg hm]

theorem executeUnit_write {s : State} (hm : s.bulk.mode = .write) : executeUnit s =
    issueAt 0x20 (pageUnitAddr s.cfg s.bulk.unit) s.cfg.recWords seqPageProgram .executed (setPhase .execute s) := by
  simp [executeUnit, setPhase, hm]

theorem executeUnit_erase {s : State} (hm : s.bulk.mode = .erase) : executeUnit s =
    issueAt 0x30 (blockUnitAddr s.cfg s.bulk.unit) 0 seqBlockErase .executed (setPhase .execute s) := by
  simp [executeUnit, setPhase, hm]

theorem executedCheck_erase {s : State} (hr : s.bulk.lastResult = .success) (hm : s.bulk.mode = .erase) :
    executedCheck s = goTo .advance s := by
  simp [executedCheck, hr, hm, unitOver]

/-- The bulk registers after Advance (R271). -/
def advancedBulk (b : Bulk) : Bulk :=
  { b with
    phase := .advance, unitsDone := b.unitsDone + 1, left := b.left - 1, unit := b.unit + 1
    progress := progressOf (b.unitsDone + 1) b.count }

/-- The end of a run (R263, R275). -/
def runEnd (s : State) : State := endOp .success { s with bulk := { s.bulk with active := false } }

theorem runEnd_eq {s : State} (h : s.seq.resume = none) : runEnd s = { s with
    bulk := { s.bulk with active := false }
    pins := { busRest s.pins with ceN := true }
    st := { s.st with result := .success, done := true, busy := false }
    seq := { s.seq with pc := .idle } } :=
  endOp_host h

/-- At the loop head with no unit left the run ends. -/
theorem reach_runEnd {s : State} (hpc : s.seq.pc = .bulk .loopHead) (hl : s.bulk.left = 0) :
    Reach 2 s (runEnd s) := by
  have h1 : Reach 1 s (loopHead s) := reach_retryStep hpc (by decide) (by decide)
  rw [loopHead_done hl] at h1
  have h2 : Reach 1 (goTo .finish s) (retryStep .finish (goTo .finish s)) :=
    reach_retryStep rfl (by decide) (by decide)
  have e : retryStep .finish (goTo .finish s) = runEnd s :=
    endOp_setPc .success (.bulk .finish) { s with bulk := { s.bulk with active := false } }
  rw [e] at h2
  exact h1.trans h2

/-! ### Operations the run issues -/

/-- The request of `Issue(op, a, n)` (R266). -/
def issuedCur (s : State) (op : Byte) (a : Reg) (n : Nat) : Cur :=
  { s.seq.cur with op := op, l := false, addr := a, len := BitVec.ofNat 17 n }

/-- The request of `Issue(READ_ID)` (R266). -/
def readIdCur (s : State) : Cur := { s.seq.cur with op := 0x01, l := false }

theorem checkRequest_readId {s : State} (hx : s.st.session = .none) (cur : Cur) (hop : cur.op = 0x01) :
    checkRequest s.cfg s.st.session cur = none := by
  rw [hx]
  exact checkRequest_pass (by simp [hop, legalOp]) (by rw [hop]; rfl) (by simp [hop, usesLen]) (by simp [hop])

theorem issues_capture {s : State} (hpc : s.seq.pc = .bulk .capture) (hx : s.st.session = .none) :
    Issues s (readIdCur s) seqReadId .captured s.bulk.phase where
  moves := by simp [moves, hpc]
  tick := by rw [tick, hpc]; rfl
  check := checkRequest_readId hx _ rfl

theorem issues_validate {s : State} (hpc : s.seq.pc = .bulk .validate) (hx : s.st.session = .none) :
    Issues s (readIdCur s) seqReadId .validated .validate where
  moves := by simp [moves, hpc]
  tick := by rw [tick, hpc]; rfl
  check := checkRequest_readId hx _ rfl

theorem programEvents_congr {s u : State} (hcfg : u.cfg = s.cfg) (hA : u.bufA = s.bufA)
    (hf : u.env.frees = s.env.frees) (a : Reg) (n : Nat) : programEvents u a n = programEvents s a n := by
  simp only [programEvents, sentEvents, sentWord, hcfg, hA, hf]

/-- Execute of a write unit is a PAGE_PROGRAM of the record (R267). -/
theorem issues_program {s : State} (hwf : s.cfg.wf = true) (hpc : s.seq.pc = .bulk .execute)
    (hm : s.bulk.mode = .write) (hx : s.st.session = .none) :
    let a := pageUnitAddr s.cfg s.bulk.unit
    let n := s.cfg.recWords
    IssuesWait s (issuedCur s 0x20 a n) seqPageProgram .executed .execute .programFailed
      (seqCmd 0x80 ++ (seqAddrs (fullGroup s.cfg a) ++ seqWriteWords n) ++ seqCmd 0x10)
      (programEvents s a n ++ [.cmd 0x10]) (2 * n + 13 + 2) := by
  intro a n
  obtain ⟨hbuf, -, -, -, hrec⟩ := wf_bounds hwf
  have hlen : (issuedCur s 0x20 a n).len.toNat = n := Nat.mod_eq_of_lt (by omega)
  refine { moves := by simp [moves, hpc], tick := ?_, check := ?_, seq := ?_, load := fun u hcfg hA hf => ?_ }
  · rw [tick, hpc]
    exact executeUnit_write hm
  · rw [hx]
    exact checkRequest_pass (by simp [issuedCur, legalOp]) rfl (fun _ => by rw [hlen]; exact hrec)
      (by simp [issuedCur])
  · simp only [seqPageProgram, seqProgramLoad, seqWaitStatus, hlen, List.append_assoc]
    rfl
  · obtain ⟨t, load, hA', hC', sr⟩ := does_programLoad a n u (by omega)
    obtain ⟨t', cmd, quiet⟩ := does_cmd 0x10 t
    have hall := load.append cmd
    rw [programEvents_congr hcfg hA hf, hcfg] at hall
    exact ⟨t', hall, ⟨quiet.bufA.trans hA', quiet.bufC.trans hC'⟩, quiet.lastSr.trans sr⟩

/-- Execute of an erase unit is a BLOCK_ERASE (R267). -/
theorem issues_erase {s : State} (hpc : s.seq.pc = .bulk .execute) (hm : s.bulk.mode = .erase)
    (hx : s.st.session = .none) :
    let a := blockUnitAddr s.cfg s.bulk.unit
    IssuesWait s (issuedCur s 0x30 a 0) seqBlockErase .executed .execute .eraseFailed
      (seqCmd 0x60 ++ seqAddrs (rowGroup s.cfg a) ++ seqCmd 0xD0)
      ([.cmd 0x60] ++ addrEvents (rowGroup s.cfg a) ++ [.cmd 0xD0]) (2 + 2 * (rowGroup s.cfg a).length + 2) := by
  intro a
  refine { moves := by simp [moves, hpc], tick := ?_, check := ?_, seq := ?_, load := fun u _ _ _ => ?_ }
  · rw [tick, hpc]
    exact executeUnit_erase hm
  · rw [hx]
    exact checkRequest_pass (by simp [issuedCur, legalOp]) rfl (fun h => absurd h (by simp [issuedCur, usesLen]))
      (by simp [issuedCur])
  · simp only [seqBlockErase, seqWaitStatus, List.append_assoc]
    rfl
  · obtain ⟨t1, cmd, quiet1⟩ := does_cmd 0x60 u
    obtain ⟨t2, addrs, quiet2⟩ := does_addrs (rowGroup s.cfg a) t1
    obtain ⟨t3, confirm, quiet3⟩ := does_cmd 0xD0 t2
    have quiet := quiet1.trans (quiet2.trans quiet3)
    exact ⟨t3, (cmd.append addrs).append confirm, ⟨quiet.bufA, quiet.bufC⟩, quiet.lastSr⟩

/-! ### Stretches of a run -/

theorem IssueRun.goTo {N used : Nat} {s t : State} {p q : RetryPt} {x : Phase} {r : Result} {es : List Event}
    {sr : Byte} (h : IssueRun N s t p x r es used sr) (hreach : Reach 1 t (goTo q t)) :
    IssueRun (N + 1) s (Machine.goTo q t) q x r es used sr := by
  obtain ⟨⟨n, hn, g⟩, ⟨obs, cfg, regs, ids, st, bulk, -, resume, cle, ale, weN, reN, ceN, inputs, reads⟩, phase⟩ := h
  exact ⟨⟨n + 1, by omega, g.trans hreach⟩,
    ⟨obs, cfg, regs, ids, st, bulk, rfl, resume, cle, ale, weN, reN, ceN, inputs, reads⟩, phase⟩

/-- A validation that finds the captured identity comes to Execute (R264). -/
theorem reach_execute {s : State} (hpc : s.seq.pc = .bulk .validate) (hx : s.st.session = .none)
    (hn : s.cfg.idBytes ≤ 6) (hready : readyAt s 0 = true)
    (hid : ∀ i < s.cfg.idBytes, answerByte s (1 + i) = idByteOf s.ids.capLo s.ids.capHi i) :
    ∃ t, IssueRun 26 s t .execute .validate .success (readIdEvents s 0) (1 + s.cfg.idBytes) (lastSrAt s 0)
      ∧ BuffersKept s t ∧ IdStored s 1 t.ids.idLo t.ids.idHi ∧ t.ids.capLo = s.ids.capLo
      ∧ t.ids.capHi = s.ids.capHi := by
  obtain ⟨t, hrun, hbufs, hstored, hlo, hhi⟩ := (issues_validate hpc hx).readId hready hn
  obtain ⟨-, hcfg, -, -, -, hbulk, hpc', -⟩ := hrun.issued
  have hcap : idIsCaptured t = true := by
    rw [idIsCaptured, idMatches_iff, hcfg, hlo, hhi]
    exact fun i hi => (hstored.byte hn hi).trans (hid i hi)
  have hcheck : Reach 1 t (validateCheck t) := reach_retryStep hpc' (by decide) (by decide)
  rw [validateCheck_captured (by rw [hbulk]) hcap] at hcheck
  exact ⟨goTo .execute t, hrun.goTo hcheck, hbufs, hstored, hlo, hhi⟩

/-- The run of i, requested in s, stands at p in t with its identity captured, the bulk registers bulk and LAST_SR
sr: the cycles es were made, answered by `used` answers. -/
structure RunAt (s t : State) (i : Instr) (p : RetryPt) (bulk : Bulk) (es : List Event) (used : Nat) (sr : Byte) :
    Prop where
  frame : RunFrame s t i
  st : t.st = { s.st with busy := true, done := false, idcap := true, lastSr := sr }
  bulk : t.bulk = bulk
  observed : Observed s t es used
  pc : t.seq.pc = .bulk p
  resume : t.seq.resume = none
  ceN : t.pins.ceN = true

theorem RunAt.cfg {s t : State} {i : Instr} {p : RetryPt} {bulk : Bulk} {es : List Event} {used : Nat} {sr : Byte}
    (h : RunAt s t i p bulk es used sr) : t.cfg = s.cfg := h.frame.1

theorem RunAt.session {s t : State} {i : Instr} {p : RetryPt} {bulk : Bulk} {es : List Event} {used : Nat} {sr : Byte}
    (h : RunAt s t i p bulk es used sr) : t.st.session = s.st.session := by rw [h.st]

/-- A move of the retry controller that changes bulk registers only. -/
theorem RunAt.move {s t : State} {i : Instr} {p : RetryPt} {bulk : Bulk} {es : List Event} {used : Nat} {sr : Byte}
    (h : RunAt s t i p bulk es used sr) (q : RetryPt) (bulk' : Bulk) :
    RunAt s (goTo q { t with bulk := bulk' }) i q bulk' es used sr :=
  ⟨h.frame, h.st, rfl, h.observed, rfl, h.resume, h.ceN⟩

/-- An operation the run has issued. -/
theorem RunAt.issue {s t u : State} {i : Instr} {p q : RetryPt} {bulk : Bulk} {es fs : List Event} {used used' N : Nat}
    {sr sr' : Byte} {x : Phase} {r : Result} (h : RunAt s t i p bulk es used sr)
    (g : IssueRun N t u q x r fs used' sr') :
    RunAt s u i q { bulk with lastResult := r, phase := x } (es ++ fs) (used + used') sr' := by
  obtain ⟨⟨cfg, regs, ovr, session, inputs, reads⟩, st, hbulk, obs, -⟩ := h
  obtain ⟨-, ⟨obs', cfg', regs', -, st', hbulk', pc', resume', -, -, -, -, ceN', inputs', reads'⟩, phase⟩ := g
  have hst : u.st = { s.st with busy := true, done := false, idcap := true, lastSr := sr' } := by
    rw [st']
    show { t.st with lastSr := sr' } = _
    rw [st]
  refine ⟨⟨cfg'.trans cfg, regs'.trans regs, by rw [hst], by rw [hst], inputs'.trans inputs, reads'.trans reads⟩, hst,
    ?_, obs.trans obs', pc', resume', ceN'⟩
  rw [hbulk', phase]
  show { t.bulk with lastResult := r, phase := x } = _
  rw [hbulk]

theorem Startable.session {s : State} {x : Session} (h : Startable s x) : s.st.session = x := by
  obtain ⟨-, -, hx, -⟩ := h
  exact hx

/-- A bulk operation is the request of the one micro-operation that starts its run (R261). -/
theorem exec_bulk {i : Instr} {m : BulkMode} (h : bulkModeOf i = some m) : ∃ body : Config → Cur → List Micro,
    (∀ s, exec i s = .next (request i.opcode i.lastFlag body s)) ∧ (∀ c cur, body c cur = [.startBulk m])
    ∧ (∀ c, legalOp c i.opcode = true) ∧ sessionAdmits .none i.opcode = true ∧ usesLen i.opcode = false
    ∧ i.opcode ≠ 0x12#8 := by
  cases i with
  | bulkRead | bulkWrite | bulkErase =>
    obtain rfl : _ = m := Option.some.inj h
    exact ⟨_, fun _ => rfl, fun _ _ => rfl, fun c => by simp [legalOp, Instr.opcode], rfl, rfl, by simp [Instr.opcode]⟩
  | _ => cases h

/-- The request of a bulk operation starts the run (R261). -/
theorem reach_startBulk {s : State} {op : Byte} {l : Bool} {body : Config → Cur → List Micro} {m : BulkMode}
    (hbody : ∀ c cur, body c cur = [.startBulk m])
    (hc : checkRequest s.cfg s.st.session (latchRequest op l s) = none) :
    Reach 2 (startOp op l body s) (startBulk m (startOp op l body s)) := by
  have h1 : Reach 1 (startOp op l body s) (atK op (body s.cfg (latchRequest op l s)) (startOp op l body s)) :=
    reach_check (s := startOp op l body s) hc
  rw [hbody] at h1
  exact h1.trans (reach_tick (moves_atK op [.startBulk m] (startOp op l body s)))

/-- From the start of a run to the loop head, of a ready device with the expected identity (R262). -/
theorem run_captured {s : State} {i : Instr} {m : BulkMode} (hwf : s.cfg.wf = true) (hs : Startable s .none)
    (hi : bulkModeOf i = some m) (hready : readyAt s 0 = true) (hid : IdentityOk s 1) :
    ∃ body t, exec i s = .next (request i.opcode i.lastFlag body s)
      ∧ RunAt s t i .loopHead { runStarted s m with progress := if s.regs.bulkCount = 0 then 100 else 0 }
          (readIdEvents s 0) (1 + s.cfg.idBytes) (lastSrAt s 0)
      ∧ IdCaptured s t ∧ BuffersKept s t ∧ ∃ n ≤ 28, Reach n (startOp i.opcode i.lastFlag body s) t := by
  obtain ⟨body, hexec, hbody, hlegal, hadmit, hlen, hop⟩ := exec_bulk hi
  obtain ⟨-, hn, -⟩ := wf_bounds hwf
  have hc : checkRequest s.cfg s.st.session (latchRequest i.opcode i.lastFlag s) = none :=
    checkRequest_startable hs (hlegal _) hadmit (fun h => by simp [hlen] at h) fun h => absurd h hop
  have hstart := reach_startBulk hbody hc
  let u := startBulk m (startOp i.opcode i.lastFlag body s)
  obtain ⟨t, ⟨⟨k, hk, hreach⟩, issued, phase⟩, hbufs, hstored, -, -⟩ :=
    (issues_capture (s := u) rfl hs.session).readId hready hn
  obtain ⟨obs, cfg, regs, -, st, bulk, pc, resume, -, -, -, -, ceN, inputs, reads⟩ := issued
  have hexpected : idIsExpected t = true := by
    rw [idIsExpected, idMatches_iff, cfg]
    exact fun i hi => (hstored.byte hn hi).trans (hid i hi)
  have hcheck : Reach 1 t (captureCheck t) := reach_retryStep pc (by decide) (by decide)
  rw [captureCheck_expected (by rw [bulk]) hexpected] at hcheck
  rw [phase] at bulk
  have hst : t.st = { s.st with busy := true, done := false, idcap := false, lastSr := lastSrAt s 0 } := st
  have hbulk : t.bulk = runStarted s m := bulk
  have hst' : (captureDone t).st = { s.st with busy := true, done := false, idcap := true, lastSr := lastSrAt s 0 } := by
    show { t.st with idcap := true } = _
    rw [hst]
  have hbulk' : (captureDone t).bulk
      = { runStarted s m with progress := if s.regs.bulkCount = 0 then 100 else 0 } := by
    show { t.bulk with progress := if t.bulk.count = 0 then 100 else t.bulk.progress } = _
    rw [hbulk]
    rfl
  exact ⟨body, captureDone t, hexec s, ⟨⟨cfg, regs, by rw [hst'], by rw [hst'], inputs, reads⟩, hst', hbulk', obs, rfl,
    resume, ceN⟩, ⟨hstored, rfl, rfl, rfl⟩, hbufs, 2 + k + 1, by omega, (hstart.trans hreach).trans hcheck⟩

/-- From the loop head of a read or an erase run to the Execute of its first unit, of a device that keeps its
identity (R263, R264). -/
theorem run_execute {s a : State} {i : Instr} {m : BulkMode} (hwf : s.cfg.wf = true) (hm : m ≠ .write)
    (hx : s.st.session = .none) (hcount : s.regs.bulkCount ≠ 0) (hid : IdentityOk s 1)
    (hready : readyAt s (1 + s.cfg.idBytes) = true) (hid' : IdentityOk s (2 + s.cfg.idBytes))
    (h : RunAt s a i .loopHead (runStarted s m) (readIdEvents s 0) (1 + s.cfg.idBytes) (lastSrAt s 0))
    (hcap : IdCaptured s a) (hbufs : BuffersKept s a) :
    ∃ t, RunAt s t i .execute { runStarted s m with phase := .validate }
        (readIdEvents s 0 ++ readIdEvents s (1 + s.cfg.idBytes)) (2 + 2 * s.cfg.idBytes)
        (lastSrAt s (1 + s.cfg.idBytes))
      ∧ IdStored s (2 + s.cfg.idBytes) t.ids.idLo t.ids.idHi ∧ BuffersKept s t ∧ ∃ n ≤ 27, Reach n a t := by
  obtain ⟨-, hn, -⟩ := wf_bounds hwf
  obtain ⟨stored, capLo, capHi, -⟩ := hcap
  have hattempt : Reach 1 a (loopHead a) := reach_retryStep h.pc (by decide) (by decide)
  rw [loopHead_attempt (by rw [h.bulk]; exact hcount) (by rw [h.bulk]; rfl) (by rw [h.bulk]; exact hm)] at hattempt
  have hbegin : RunAt s (beginAttempts a) i .validate { a.bulk with fails := 0 } (readIdEvents s 0)
      (1 + s.cfg.idBytes) (lastSrAt s 0) := h.move _ _
  rw [h.bulk] at hbegin
  have after := h.observed.span h.cfg
  have hkept : ∀ k < a.cfg.idBytes, answerByte a (1 + k) = idByteOf a.ids.capLo a.ids.capHi k := by
    rw [h.cfg, capLo, capHi]
    intro k hk
    have hbyte : answerByte a (1 + k) = answerByte s (1 + s.cfg.idBytes + (1 + k)) := answerByte_after after _
    have hpos : 1 + s.cfg.idBytes + (1 + k) = 2 + s.cfg.idBytes + k := by omega
    rw [hbyte, hpos, hid' k hk, stored.byte hn hk, hid k hk]
  obtain ⟨t, hrun, hbufs', stored', -, -⟩ := reach_execute (s := beginAttempts a) rfl (hbegin.session.trans hx)
    (by rw [hbegin.cfg]; exact hn) ((readyAt_after after 0).trans hready) hkept
  have hev : readIdEvents (beginAttempts a) 0 = readIdEvents s (1 + s.cfg.idBytes) := readIdEvents_after after 0
  have hsr : lastSrAt (beginAttempts a) 0 = lastSrAt s (1 + s.cfg.idBytes) :=
    lastSrAt_after hbegin.observed hbegin.cfg (by rw [hbegin.st]) 0
  have hused : 1 + s.cfg.idBytes + (1 + s.cfg.idBytes) = 2 + 2 * s.cfg.idBytes := by omega
  have hpos : 1 + s.cfg.idBytes + 1 = 2 + s.cfg.idBytes := by omega
  rw [hev, hsr, congrArg Config.idBytes hbegin.cfg] at hrun
  have hat := hbegin.issue hrun
  rw [hused] at hat
  obtain ⟨n, hle, hreach⟩ := hrun.reach
  exact ⟨t, hat, hpos ▸ (idStored_after after 1 _ _).1 stored', hbufs.trans hbufs', 1 + n, by omega,
    hattempt.trans hreach⟩

/-- An erase unit whose erase passes comes to Advance (R267, R271). -/
theorem reach_advance_erase {s : State} {j : Nat} (hpc : s.seq.pc = .bulk .execute) (hm : s.bulk.mode = .erase)
    (hx : s.st.session = .none) (hready : readyAt s 0 = true) (hj : ReadyAfter s 1 j)
    (hpass : statusFailed (answerByte s (j + 2)) = false) :
    ∃ t, IssueRun (5 * j + 31) s t .advance .execute .success
        (sampleEvents s 0 ++ ([.cmd 0x60] ++ addrEvents (rowGroup s.cfg (blockUnitAddr s.cfg s.bulk.unit))
          ++ [.cmd 0xD0]) ++ pollEvents s 1 (j + 1) ++ statusEvents s (j + 2)) (j + 3) (answerByte s (j + 2))
      ∧ t.ids = s.ids ∧ BuffersKept s t := by
  obtain ⟨t, hrun, hids, hbufs⟩ := (issues_erase hpc hm hx).ready hready hj
  rw [hpass, if_neg Bool.false_ne_true] at hrun
  obtain ⟨-, -, -, -, -, hbulk, hpc', -⟩ := hrun.issued
  have hcheck : Reach 1 t (executedCheck t) := reach_retryStep hpc' (by decide) (by decide)
  rw [executedCheck_erase (by rw [hbulk]) (by rw [hbulk]; exact hm)] at hcheck
  obtain ⟨⟨n, hn, hreach⟩, hissued, hphase⟩ := hrun.goTo hcheck
  have hrow := rowGroup_length s.cfg (blockUnitAddr s.cfg s.bulk.unit)
  exact ⟨goTo .advance t, ⟨⟨n, by omega, hreach⟩, hissued, hphase⟩, hids, hbufs⟩

/-- From Execute of an erase unit whose erase passes to Advance, b answers having been used before. -/
theorem RunAt.advance_erase {s d : State} {i : Instr} {bulk : Bulk} {es : List Event} {b j : Nat} {sr : Byte}
    (h : RunAt s d i .execute bulk es b sr) (hm : bulk.mode = .erase) (hx : s.st.session = .none)
    (hready : readyAt s b = true) (hj : ReadyAfter s (b + 1) j)
    (hpass : statusFailed (answerByte s (b + (j + 2))) = false) :
    ∃ t, RunAt s t i .advance { bulk with lastResult := .success, phase := .execute }
        (es ++ (sampleEvents s b ++ ([.cmd 0x60] ++ addrEvents (rowGroup s.cfg (blockUnitAddr s.cfg bulk.unit))
          ++ [.cmd 0xD0]) ++ pollEvents s (b + 1) (j + 1) ++ statusEvents s (b + (j + 2)))) (b + (j + 3))
        (answerByte s (b + (j + 2)))
      ∧ t.ids = d.ids ∧ BuffersKept d t ∧ ∃ n ≤ 5 * j + 31, Reach n d t := by
  have after := h.observed.span h.cfg
  have hbyte : answerByte d (j + 2) = answerByte s (b + (j + 2)) := answerByte_after after _
  have hsample : sampleEvents d 0 = sampleEvents s b := sampleEvents_after after 0
  have hpoll : pollEvents d 1 (j + 1) = pollEvents s (b + 1) (j + 1) := pollEvents_after after 1 _
  have hstatus : statusEvents d (j + 2) = statusEvents s (b + (j + 2)) := statusEvents_after after _
  obtain ⟨t, hissue, hids, hbufs⟩ := reach_advance_erase h.pc (by rw [h.bulk]; exact hm) (h.session.trans hx)
    ((readyAt_after after 0).trans hready) ((readyAfter_after after 1 j).2 hj) (hbyte ▸ hpass)
  rw [h.bulk, hsample, hpoll, hstatus, hbyte, h.cfg] at hissue
  exact ⟨t, h.issue hissue, hids, hbufs, hissue.reach⟩

theorem request_reaches_opBudget {s t : State} {op : Byte} {l : Bool} {body : Config → Cur → List Micro} {n : Nat}
    {x : Session} (hs : Startable s x) (h : Reach n (startOp op l body s) t) (ht : moves t = false)
    (hn : n ≤ opBudget s.cfg) : request op l body s = t :=
  request_reaches hs h ht (hn.trans (drive_budget_le (startOp op l body s)))

/-- A run with no unit left ends at the loop head (R275, R300). -/
theorem RunAt.ends {s t : State} {i : Instr} {bulk : Bulk} {es : List Event} {used : Nat} {sr : Byte}
    {body : Config → Cur → List Micro} {n : Nat} (h : RunAt s t i .loopHead bulk es used sr)
    (hl : bulk.left = 0) (hs : Startable s .none) (hreach : Reach n (startOp i.opcode i.lastFlag body s) t)
    (hn : n + 2 ≤ opBudget s.cfg) : ∃ u, request i.opcode i.lastFlag body s = u ∧ RunFrame s u i
      ∧ RunEnded u .success ∧ Observed s u es used ∧ u.bulk = { bulk with active := false } ∧ u.st.idcap = true
      ∧ u.st.lastSr = sr ∧ u.ids = t.ids ∧ BuffersKept t u := by
  obtain ⟨frame, st, hbulk, obs, pc, resume, -⟩ := h
  have hend := hreach.trans (reach_runEnd pc (by rw [hbulk]; exact hl))
  have hstill : moves (runEnd t) = false := moves_endOp resume
  refine ⟨runEnd t, request_reaches_opBudget hs hend hstill hn, ?_⟩
  rw [runEnd_eq resume]
  refine ⟨frame, ⟨rfl, rfl, rfl, rfl, rfl, resume, rfl, rfl, rfl, rfl, rfl⟩, obs, ?_, ?_, ?_, rfl, rfl, rfl⟩
  · show { t.bulk with active := false } = _
    rw [hbulk]
  · show t.st.idcap = _
    rw [st]
  · show t.st.lastSr = _
    rw [st]

/-! ### The statements -/

/-- Settles O47: the capture comes to the loop head with no unit left, and the run ends there. -/
theorem bulkEmptyRun : Obligations.BulkEmptyRun := by
  intro s i m hwf hs hi hcount hready hid
  obtain ⟨body, t, hexec, hrun, ⟨stored, capLo, capHi, -⟩, hbufs, n, hn, hreach⟩ :=
    run_captured hwf hs hi hready hid
  rw [hcount, if_pos rfl] at hrun
  obtain ⟨u, hu, frame, ended, obs, bulk, idcap, sr, ids, hbufs'⟩ :=
    hrun.ends hcount hs hreach (by unfold opBudget; omega)
  obtain ⟨hA, hC⟩ := hbufs.trans hbufs'
  rw [hexec, hu]
  rw [← ids] at stored capLo capHi
  exact ⟨u, rfl, frame, ended, obs, ⟨stored, capLo, capHi, idcap⟩, bulk, sr, hA, hC⟩

/-- Settles O49: with units to do the capture comes to the Fill of the first one, a hold; and Execute issues a
PAGE_PROGRAM. -/
theorem bulkWriteFills : Obligations.BulkWriteFills := by
  refine ⟨fun s l hwf hs hcount hready hid => ?_, fun s hwf hpc hm hx => (issues_program hwf hpc hm hx).settled⟩
  obtain ⟨body, t, hexec, hrun, hcap, hbufs, n, hn, hreach⟩ :=
    run_captured (i := .bulkWrite l) hwf hs rfl hready hid
  rw [if_neg hcount] at hrun
  have hfill : Reach 1 t (loopHead t) := reach_retryStep hrun.pc (by decide) (by decide)
  rw [loopHead_fill (by rw [hrun.bulk]; exact hcount) (by rw [hrun.bulk]; rfl) (by rw [hrun.bulk]; rfl)] at hfill
  let u := requestStream true .fill .fillHold t
  have hat : RunAt s u (.bulkWrite l) .fillHold
      { t.bulk with phase := .fill, streamDir := true, streamReq := true } _ _ _ := hrun.move _ _
  rw [hrun.bulk] at hat
  obtain ⟨frame, st, bulk, obs, pc, -, ceN⟩ := hat
  have hholds : holding u = true := by simp [holding, bulk, runStarted]
  have hstill : moves u = false := by simp [moves, pc, hholds]
  rw [hexec, request_reaches_opBudget hs (hreach.trans hfill) hstill (by unfold opBudget; omega)]
  exact ⟨u, rfl, frame, ⟨by rw [st], by rw [st], by rw [st], pc, by rw [bulk], by rw [bulk], hholds, ceN⟩, obs, hcap,
    bulk, hbufs⟩

/-- Settles O51: capture, one validation, one erase, Advance, and the loop head with no unit left; and Execute
issues a BLOCK_ERASE. -/
theorem bulkEraseOne : Obligations.BulkEraseOne := by
  refine ⟨fun s l j hwf hs hcount hready hid hready' hid' hready'' hj hpass => ?_,
    fun s hwf hpc hm hx => (issues_erase hpc hm hx).settled⟩
  have hcount0 : s.regs.bulkCount ≠ 0 := by rw [hcount]; decide
  have hfirst : 3 + 2 * s.cfg.idBytes = 2 + 2 * s.cfg.idBytes + 1 := by omega
  have hlast : 4 + 2 * s.cfg.idBytes + j = 2 + 2 * s.cfg.idBytes + (j + 2) := by omega
  rw [hfirst] at hj
  rw [hlast] at hpass
  obtain ⟨body, a, hexec, hrun, hcap, hbufs, n, hn, hreach⟩ :=
    run_captured (i := .bulkErase l) hwf hs rfl hready hid
  rw [if_neg hcount0] at hrun
  obtain ⟨d, hexecute, stored, hbufs', n', hn', hreach'⟩ :=
    run_execute (m := .erase) hwf (by decide) hs.session hcount0 hid hready' hid' hrun hcap hbufs
  obtain ⟨e, hadvance, hids, hbufs'', n'', hn'', hreach''⟩ :=
    hexecute.advance_erase rfl hs.session hready'' hj hpass
  have hdone : Reach 1 e (advanceUnit e) := reach_retryStep hadvance.pc (by decide) (by decide)
  have hloop : RunAt s (advanceUnit e) (.bulkErase l) .loopHead (advancedBulk e.bulk) _ _ _ := hadvance.move _ _
  have hbulk : advancedBulk e.bulk = { runStarted s .erase with
      unit := s.regs.bulkStart + 1, left := 0, unitsDone := 1, phase := .advance, progress := 100 } := by
    rw [hadvance.bulk]
    simp [advancedBulk, runStarted, hcount, progressOf]
  rw [hbulk] at hloop
  have hthr := hj.1
  obtain ⟨u, hu, frame, ended, obs, bulk, idcap, sr, ids, hbufs'''⟩ :=
    hloop.ends rfl hs (((hreach.trans hreach').trans hreach'').trans hdone) (by unfold opBudget; omega)
  obtain ⟨hA, hC⟩ := (hbufs'.trans hbufs'').trans hbufs'''
  have hids' : u.ids = d.ids := ids.trans hids
  rw [← hids'] at stored
  rw [hexec, hu]
  have hstatus : 2 + 2 * s.cfg.idBytes + (j + 2) = 2 + 2 * s.cfg.idBytes + 2 + j := by omega
  have hused : 2 + 2 * s.cfg.idBytes + (j + 3) = 2 + 2 * s.cfg.idBytes + 3 + j := by omega
  rw [hstatus, hused] at obs
  rw [hstatus] at sr
  refine ⟨u, rfl, frame, ended, ?_, bulk, stored, idcap, sr, hA, hC⟩
  simp only [List.append_assoc] at obs ⊢
  exact obs

end Sys2Proof.Machine

/-! The buffer port's data register (R74), the bytes of an address (R77, R80, R116 to R118), and a step that is a host
access or the block's turn (R23, R75, R76, R132). -/

namespace Sys2Proof.Machine

/-! ### A word of buffer A (R72, R74) -/

theorem memRead_memWrite_other {i j : Nat} (h : i ≠ j) (v : Word) (s : State) :
    memRead (memWrite j v s) i = memRead s i :=
  congrArg (·.getD (busWord s.cfg (Config.freeWordA s.env.frees i))) (memWrite_other h v s)

theorem memWrite_of_le {i : Nat} {s : State} (h : s.cfg.bufWords ≤ i) (v : Word) : memWrite i v s = s := by
  simp [memWrite, Nat.not_lt.mpr h]

/-- An accepted read of BUF_DATA: the word or 0, and only BUF_PTR steps on, on both sides of BUF_WORDS (R74). -/
theorem readBufData_accepted {s : State} (h : bufferOpen s = true) :
    (readBufData s).1 =
      (if s.regs.bufPtr.toNat < s.cfg.bufWords then (memRead s s.regs.bufPtr.toNat).setWidth 32 else 0)
    ∧ (readBufData s).2.regs = { s.regs with bufPtr := s.regs.bufPtr + 1 }
    ∧ (readBufData s).2.bufA = s.bufA ∧ (readBufData s).2.st = s.st := by
  rw [readBufData_open h]
  split <;> exact ⟨rfl, rfl, rfl, rfl⟩

/-- Settles O12: the port is open, and a write is one `memWrite` at BUF_PTR. -/
theorem bufData : Obligations.BufData := by
  intro s v haccepted
  have hport : bufferOpen s = true := by simpa [bufferOpen] using haccepted
  rw [hostRead_bufData, hostWrite_bufData, writeBufData_open hport]
  obtain ⟨value, regs, words, st⟩ := readBufData_accepted hport
  refine ⟨value, regs, words, st, rfl, rfl, fun hin => ⟨memRead_memWrite_same _ _ s hin, fun i hi => ?_⟩,
    fun hpast => ?_⟩
  · exact memRead_memWrite_other hi _ s
  · rw [memWrite_of_le hpast, bumpPtr_bufA]

/-! ### The bytes of an address (R77, R116 to R118) -/

theorem wf_rowShift_rowCycles {c : Config} (h : c.wf = true) :
    c.rowShift ≤ 16 ∧ (c.rowCycles = 2 ∨ c.rowCycles = 3) := by
  simp [Config.wf] at h
  omega

theorem toNat_row (c : Config) (a : Reg) : (row c a).toNat = a.toNat / 2 ^ c.rowShift := by
  rw [row, BitVec.toNat_ushiftRight, Nat.shiftRight_eq_div_pow]

theorem toNat_col {c : Config} (h : c.rowShift ≤ 16) (a : Reg) : (col c a).toNat = a.toNat % 2 ^ c.rowShift := by
  have hfits : a.toNat % 2 ^ c.rowShift < 2 ^ 16 :=
    (Nat.mod_lt _ (Nat.two_pow_pos _)).trans_le (Nat.pow_le_pow_right (by decide) h)
  rw [col, BitVec.toNat_ofNat, Nat.mod_eq_of_lt hfits]

/-- Byte k of a number, by arithmetic. -/
theorem toNat_setWidth_ushiftRight {w : Nat} (v : BitVec w) (k : Nat) :
    ((v >>> (8 * k)).setWidth 8).toNat = v.toNat / 2 ^ (8 * k) % 2 ^ 8 := by
  rw [BitVec.toNat_setWidth, BitVec.toNat_ushiftRight, Nat.shiftRight_eq_div_pow]

theorem colGroup_eq_map (c : Config) (a : Reg) :
    colGroup c a = (List.range 2).map fun k => (col c a >>> (8 * k)).setWidth 8 := by
  simp [colGroup, List.range_succ]

theorem rowGroup_eq_map {c : Config} (h : c.rowCycles = 2 ∨ c.rowCycles = 3) (a : Reg) :
    rowGroup c a = (List.range c.rowCycles).map fun k => byteOf k (row c a) := by
  obtain h | h := h
  · simp [rowGroup, h, List.range_succ]
  · simp [rowGroup, h, List.range_succ]

@[simp] theorem colGroup_length (c : Config) (a : Reg) : (colGroup c a).length = 2 := rfl

/-- A byte that lies below bit m is settled by the number modulo 2^m. -/
theorem byte_eq_of_mod_eq {a b m p : Nat} (h : a % 2 ^ m = b % 2 ^ m) (hp : p + 8 ≤ m) :
    a / 2 ^ p % 2 ^ 8 = b / 2 ^ p % 2 ^ 8 := by
  have hlow : a % 2 ^ (p + 8) = b % 2 ^ (p + 8) := by
    rw [← Nat.mod_mod_of_dvd a (Nat.pow_dvd_pow 2 hp), h, Nat.mod_mod_of_dvd b (Nat.pow_dvd_pow 2 hp)]
  rw [← Nat.mod_mul_right_div_self, ← Nat.mod_mul_right_div_self, ← Nat.pow_add, hlow]

/-- The column is settled by the address bits below ROW_SHIFT. -/
theorem col_eq_of_mod_eq {c : Config} {a b : Reg} {m : Nat} (hm : c.rowShift ≤ m)
    (h : a.toNat % 2 ^ m = b.toNat % 2 ^ m) : col c a = col c b := by
  have hdvd : 2 ^ c.rowShift ∣ 2 ^ m := Nat.pow_dvd_pow 2 hm
  rw [col, col, ← Nat.mod_mod_of_dvd a.toNat hdvd, h, Nat.mod_mod_of_dvd b.toNat hdvd]

theorem toNat_byteOf_row (c : Config) (a : Reg) (k : Nat) :
    (byteOf k (row c a)).toNat = a.toNat / 2 ^ c.rowShift / 2 ^ (8 * k) % 2 ^ 8 := by
  rw [byteOf, toNat_setWidth_ushiftRight, toNat_row]

/-- Row byte k is settled by the address bits below the end of row byte k (R80). -/
theorem byteOf_row_eq_of_mod_eq {c : Config} {a b : Reg} {k m : Nat} (hm : c.rowShift + 8 * (k + 1) ≤ m)
    (h : a.toNat % 2 ^ m = b.toNat % 2 ^ m) : byteOf k (row c a) = byteOf k (row c b) := by
  apply BitVec.eq_of_toNat_eq
  rw [toNat_byteOf_row, toNat_byteOf_row, Nat.div_div_eq_div_mul, Nat.div_div_eq_div_mul, ← Nat.pow_add]
  exact byte_eq_of_mod_eq h (by omega)

theorem rowGroup_eq_of_mod_eq {c : Config} (hcycles : c.rowCycles = 2 ∨ c.rowCycles = 3) {a b : Reg}
    (h : a.toNat % 2 ^ (c.rowShift + 8 * c.rowCycles) = b.toNat % 2 ^ (c.rowShift + 8 * c.rowCycles)) :
    rowGroup c a = rowGroup c b := by
  rw [rowGroup_eq_map hcycles, rowGroup_eq_map hcycles]
  refine List.map_congr_left fun k hk => byteOf_row_eq_of_mod_eq ?_ h
  have := List.mem_range.mp hk
  omega

/-- Byte k of the column group is byte k of the column. -/
theorem toNat_colGroup_getD {c : Config} (hshift : c.rowShift ≤ 16) (a : Reg) {k : Nat} (hk : k < 2) :
    ((colGroup c a).getD k 0).toNat = a.toNat % 2 ^ c.rowShift / 2 ^ (8 * k) % 2 ^ 8 := by
  rw [colGroup_eq_map, List.getD_eq_getElem _ _ (by simpa using hk), List.getElem_map, List.getElem_range,
    toNat_setWidth_ushiftRight, toNat_col hshift]

/-- Byte k of the row group is byte k of the row. -/
theorem toNat_rowGroup_getD {c : Config} (hcycles : c.rowCycles = 2 ∨ c.rowCycles = 3) (a : Reg) {k : Nat}
    (hk : k < c.rowCycles) :
    ((rowGroup c a).getD k 0).toNat = a.toNat / 2 ^ c.rowShift / 2 ^ (8 * k) % 2 ^ 8 := by
  rw [rowGroup_eq_map hcycles, List.getD_eq_getElem _ _ (by simpa using hk), List.getElem_map,
    List.getElem_range, toNat_byteOf_row]

/-- Settles O20: the full group is the column group, two bytes, followed by the row group. -/
theorem addressBytes : Obligations.AddressBytes := by
  intro c a hwf
  obtain ⟨hshift, hcycles⟩ := wf_rowShift_rowCycles hwf
  refine ⟨?_, fun k hk => ?_, fun k hk => ?_, rfl, rfl, fun b h => ?_⟩
  · rw [fullGroup, List.length_append, colGroup_length, rowGroup_eq_map hcycles, List.length_map,
      List.length_range]
  · have hcol : (fullGroup c a).getD k 0 = (colGroup c a).getD k 0 := List.getD_append _ _ _ _ hk
    rw [hcol, toNat_colGroup_getD hshift a hk]
  · have hrow : (fullGroup c a).getD (2 + k) 0 = (rowGroup c a).getD k 0 := by
      rw [fullGroup, List.getD_append_right _ _ _ _ (Nat.le_add_right 2 k), colGroup_length,
        Nat.add_sub_cancel_left]
    rw [hrow, toNat_rowGroup_getD hcycles a hk]
  · have hcol : col c a = col c b := col_eq_of_mod_eq (Nat.le_add_right _ _) h
    rw [fullGroup, fullGroup, colGroup, colGroup, hcol, rowGroup_eq_of_mod_eq hcycles h]

/-! ### A step that is one host access, or the block's turn (R23, R75, R76, R132) -/

theorem step_of_fetch_go {s t : State} (h : fetch s = .go t) : step s = .next t := by
  simp [step, h]

theorem fetch_access {s : State} {a : Access} {r : List Input} (hwf : s.cfg.wf = true)
    (hin : s.env.inputs = .access a :: r) (ha : accessAligned a = true) :
    fetch s = fetchAccess a (setInputs r s) := by
  simp [fetch, hwf, hin, ha]

theorem fetchAccess_read (off : Byte) (n : Nat) (s : State) :
    fetchAccess (.read off n) s = .go (noteRead (hostRead off s)) := rfl

theorem decode_noStart {w : Reg} (h : ctrlWordStart w = false) : decode w = .error .noStart := by
  simp [decode, h]

/-- A write asks for no operation unless it is one of CTRL with START = 1 (R23). -/
theorem fetchAccess_write {off : Byte} {v : Reg} (h : off = 0x00 → ctrlWordStart v = false) (n : Nat) (s : State) :
    fetchAccess (.write off n v) s = .go (hostWrite off v s) := by
  by_cases hctrl : off = 0x00#8
  · simp [fetchAccess, ctrlWritten, hctrl, decode_noStart (h hctrl), hostAccess]
  · simp [fetchAccess, ctrlWritten, hctrl, hostAccess]

theorem fetch_idle {s : State} (hwf : s.cfg.wf = true) (hin : s.env.inputs = []) : fetch s = .go (advance s) := by
  simp [fetch, hwf, hin]

theorem fetch_pause {s : State} {n : Nat} {r : List Input} (hwf : s.cfg.wf = true)
    (hin : s.env.inputs = .pause n :: r) : fetch s = .go (advance s) := by
  simp [fetch, hwf, hin]

theorem fetch_waitDone {s : State} {r : List Input} (hwf : s.cfg.wf = true)
    (hin : s.env.inputs = .waitDone :: r) : fetch s = .go (pollHost 0x14 s.st.done r s) := by
  simp [fetch, hwf, hin]

theorem fetch_waitStream {s : State} {r : List Input} (hwf : s.cfg.wf = true)
    (hin : s.env.inputs = .waitStream :: r) : fetch s = .go (pollHost 0x3C s.bulk.streamReq r s) := by
  simp [fetch, hwf, hin]

/-- A host read itself gives no value to the host: `noteRead` does, once. -/
theorem hostRead_env_reads (off : Byte) (s : State) : (hostRead off s).2.env.reads = s.env.reads := by
  by_cases hptr : off = 0x18
  · rw [hptr, hostRead_bufPtr]
    cases hport : bufferOpen s
    · rw [readBufPtr_closed hport]
      rfl
    · rw [readBufPtr_open hport]
  by_cases hdata : off = 0x1C
  · rw [hdata, hostRead_bufData]
    cases hport : bufferOpen s
    · rw [readBufData_closed hport]
      rfl
    · rw [readBufData_open hport]
      split <;> rfl
  by_cases hlog : off = 0x48
  · rw [hlog, hostRead_badLog, readBadLog_eq]
  · rw [hostRead_plain hptr hdata hlog]

theorem advance_idle {s : State} (hin : s.env.inputs = []) : advance s = drive (budget s) s := by
  simp [advance, hin]

theorem advance_pause {s : State} {n : Nat} {r : List Input} (hin : s.env.inputs = .pause n :: r) :
    advance s = drive n (setInputs r s) := by
  simp [advance, hin]

theorem advance_polling {s : State} {x : Input} {r : List Input} (hx : x = .waitDone ∨ x = .waitStream)
    (hin : s.env.inputs = x :: r) : advance s = drive (budget s) s := by
  obtain rfl | rfl := hx
  · simp [advance, hin]
  · simp [advance, hin]

/-- One turn of a polling loop on a register that reads without a side effect (R132). -/
theorem pollHost_plain {s : State} {off : Byte} {x : Input} {r : List Input}
    (hread : hostRead off s = (plainRead s off, s)) (hx : x = .waitDone ∨ x = .waitStream)
    (hin : s.env.inputs = x :: r) (bit : Bool) :
    pollHost off bit r s =
      if bit then setInputs r (noteRead (plainRead s off, s))
      else drive (budget s) (noteRead (plainRead s off, s)) := by
  have hturn : advance (noteRead (plainRead s off, s)) = drive (budget s) (noteRead (plainRead s off, s)) :=
    advance_polling hx hin
  rw [pollHost, hread, hturn]

theorem accessAligned_read {off : Byte} (h : off.toNat % 4 = 0) : accessAligned (.read off 4) = true := by
  simp [accessAligned, h]

theorem accessAligned_write {off : Byte} (h : off.toNat % 4 = 0) (v : Reg) :
    accessAligned (.write off 4 v) = true := by
  simp [accessAligned, h]

/-- Settles O5: the fetch hands on the access's state, or the block's turn. -/
theorem stepHostAccess : Obligations.StepHostAccess := by
  intro s r hwf u
  refine ⟨fun off hoff hin => ?_, fun off v hoff hin hstart => ?_, fun hin => ?_, fun n hin => ?_,
    fun x off bit hx hin => ?_⟩
  · have hfetch : fetch s = .go (noteRead (hostRead off u)) :=
      (fetch_access hwf hin (accessAligned_read hoff)).trans (fetchAccess_read off 4 u)
    rw [step_of_fetch_go hfetch, noteRead, hostRead_env_reads]
    rfl
  · exact step_of_fetch_go ((fetch_access hwf hin (accessAligned_write hoff v)).trans
      (fetchAccess_write hstart 4 u))
  · rw [step_of_fetch_go (fetch_idle hwf hin), advance_idle hin]
  · rw [step_of_fetch_go (fetch_pause hwf hin), advance_pause hin]
  · obtain ⟨⟨⟩⟩ | ⟨⟨⟩⟩ := hx
    · exact step_of_fetch_go ((fetch_waitDone hwf hin).trans (congrArg _ (pollHost_plain rfl (.inl rfl) hin _)))
    · exact step_of_fetch_go ((fetch_waitStream hwf hin).trans (congrArg _ (pollHost_plain rfl (.inr rfl) hin _)))

end Sys2Proof.Machine

/-! The request encoding (R100 to R103), a request whose OP is illegal (R308), the plane address (R120), and the
direction switches and cycles of the bus (R111 to R114, R141 to R145). -/

namespace Sys2Proof.Machine

/-! ### The fields of a CTRL word (R101) -/

/-- Clearing the reserved bits leaves OP, L and START. -/
theorem getLsbD_and_fieldMask (w : BitVec 32) {i : Nat} (hi : i < 32) :
    (w &&& 0x800001FF#32).getLsbD i = (w.getLsbD i && (decide (i < 9) || decide (i = 31))) := by
  have hmask : (0x800001FF#32).getLsbD i = (decide (i < 9) || decide (i = 31)) := by
    interval_cases i <;> rfl
  rw [BitVec.getLsbD_and, hmask]

/-- Bit i of `0x80000000 | (L << 8) | OP`. -/
theorem getLsbD_encodeWord (op : Byte) (l : Bool) (i : Nat) :
    (encodeWord op l).getLsbD i = (decide (i = 31) || decide (i = 8) && l || op.getLsbD i) := by
  have hword : encodeWord op l = bitAt true 31 ||| bitAt l 8 ||| op.setWidth 32 <<< 0 := by
    rw [BitVec.shiftLeft_zero]
    rfl
  rw [hword, BitVec.getLsbD_or, BitVec.getLsbD_or, getLsbD_bitAt _ (by decide), getLsbD_bitAt _ (by decide),
    getLsbD_fieldAt _ (by decide)]
  simp

/-- The word of a request has no reserved bit set. -/
theorem encodeWord_and_fieldMask (op : Byte) (l : Bool) :
    encodeWord op l &&& 0x800001FF#32 = encodeWord op l := by
  apply BitVec.eq_of_getLsbD_eq
  intro i hi
  rw [getLsbD_and_fieldMask _ hi, getLsbD_encodeWord]
  by_cases hop : i < 8
  · simp [show i < 9 by omega]
  · have hzero : op.getLsbD i = false := BitVec.getLsbD_of_ge _ _ (by omega)
    by_cases h8 : i = 8
    · simp [h8]
    · simpa [h8, hzero] using Or.inr

/-- With the reserved bits cleared, a word is the request of op with last flag l exactly when these are its
fields and START is 1. -/
theorem and_fieldMask_eq_encodeWord_iff (w : BitVec 32) (op : Byte) (l : Bool) :
    w &&& 0x800001FF#32 = encodeWord op l ↔ ctrlWordStart w = true ∧ ctrlWordOp w = op ∧ ctrlWordL w = l := by
  constructor
  · intro h
    have hfield : ∀ {i : Nat}, i < 32 → (w.getLsbD i && (decide (i < 9) || decide (i = 31)))
        = (decide (i = 31) || decide (i = 8) && l || op.getLsbD i) := fun {i} hi => by
      rw [← getLsbD_and_fieldMask w hi, h, getLsbD_encodeWord]
    refine ⟨by simpa [ctrlWordStart] using hfield (i := 31) (by decide), BitVec.eq_of_getLsbD_eq fun i hi => ?_,
      by simpa [ctrlWordL] using hfield (i := 8) (by decide)⟩
    have hop := hfield (i := i) (by omega)
    simpa [ctrlWordOp, hi, show i < 9 by omega, show i ≠ 31 by omega, show i ≠ 8 by omega] using hop
  · rintro ⟨hstart, rfl, rfl⟩
    apply BitVec.eq_of_getLsbD_eq
    intro i hi
    rw [getLsbD_and_fieldMask w hi, getLsbD_encodeWord, ctrlWordOp, ctrlWordL, BitVec.getLsbD_setWidth]
    by_cases h31 : i = 31
    · simpa [h31, ctrlWordStart] using hstart
    by_cases h8 : i = 8
    · simp [h8]
    · simp [h31, h8, Bool.and_comm, show i < 9 ↔ i < 8 by omega]

/-! ### The opcode map (R102) -/

theorem findOpcode_mem {op : Byte} {mk : Bool → Instr} {rows : List (Byte × (Bool → Instr))}
    (h : findOpcode op rows = some mk) : (op, mk) ∈ rows := by
  induction rows with
  | nil => cases h
  | cons row rows ih =>
    rw [findOpcode] at h
    split at h
    · next hop =>
      cases h
      simp [← hop]
    · exact .tail _ (ih h)

theorem findOpcode_eq_none_iff {op : Byte} {rows : List (Byte × (Bool → Instr))} :
    findOpcode op rows = none ↔ op ∉ rows.map Prod.fst := by
  induction rows with
  | nil => simp [findOpcode]
  | cons row rows ih =>
    rw [findOpcode, List.map_cons, List.mem_cons, not_or, ← ih]
    split
    · next hop => simp [hop]
    · next hop => simp [Ne.symm hop]

/-- Each row's operations have the row's code, and L as their last flag. -/
theorem opcodeRows_fields : ∀ row ∈ opcodeRows, ∀ l, (row.2 l).opcode = row.1 ∧ (row.2 l).lastFlag = l := by
  decide

/-- The map has the row of every operation. -/
theorem findOpcode_opcode (i : Instr) : ∃ mk, findOpcode i.opcode opcodeRows = some mk ∧ mk i.lastFlag = i := by
  cases i <;> exact ⟨_, rfl, rfl⟩

/-! ### The decoder (R101, R103) -/

theorem decode_mapped {w : BitVec 32} {mk : Bool → Instr} (hstart : ctrlWordStart w = true)
    (h : findOpcode (ctrlWordOp w) opcodeRows = some mk) : decode w = .ok (mk (ctrlWordL w)) := by
  simp [decode, hstart, h]

theorem decode_unmapped {w : BitVec 32} (hstart : ctrlWordStart w = true)
    (h : findOpcode (ctrlWordOp w) opcodeRows = none) : decode w = .error (.illegalOp (ctrlWordOp w)) := by
  simp [decode, hstart, h]

theorem decode_eq_ok_iff_fields (w : BitVec 32) (i : Instr) :
    decode w = .ok i ↔ ctrlWordStart w = true ∧ ctrlWordOp w = i.opcode ∧ ctrlWordL w = i.lastFlag := by
  constructor
  · intro h
    cases hstart : ctrlWordStart w with
    | false => cases (decode_noStart hstart).symm.trans h
    | true =>
      cases hfind : findOpcode (ctrlWordOp w) opcodeRows with
      | none => cases (decode_unmapped hstart hfind).symm.trans h
      | some mk =>
        cases (decode_mapped hstart hfind).symm.trans h
        obtain ⟨hop, hl⟩ := opcodeRows_fields _ (findOpcode_mem hfind) (ctrlWordL w)
        exact ⟨rfl, hop.symm, hl.symm⟩
  · rintro ⟨hstart, hop, hl⟩
    obtain ⟨mk, hfind, hmk⟩ := findOpcode_opcode i
    rw [decode_mapped hstart (hop ▸ hfind), hl, hmk]

theorem decode_eq_illegalOp_iff (w : BitVec 32) : decode w = .error (.illegalOp (ctrlWordOp w)) ↔
    ctrlWordStart w = true ∧ ctrlWordOp w ∉ opcodeRows.map Prod.fst := by
  rw [← findOpcode_eq_none_iff]
  constructor
  · intro h
    cases hstart : ctrlWordStart w with
    | false => cases (decode_noStart hstart).symm.trans h
    | true =>
      cases hfind : findOpcode (ctrlWordOp w) opcodeRows with
      | none => exact ⟨rfl, rfl⟩
      | some mk => cases (decode_mapped hstart hfind).symm.trans h
  · rintro ⟨hstart, hfind⟩
    exact decode_unmapped hstart hfind

/-- A word requests i exactly when it is the word of i once its reserved bits are cleared. -/
theorem decode_eq_ok_iff_and_fieldMask (w : BitVec 32) (i : Instr) :
    decode w = .ok i ↔ w &&& 0x800001FF#32 = encode i := by
  rw [decode_eq_ok_iff_fields, encode, and_fieldMask_eq_encodeWord_iff]

/-- Settles O1: decoder and encoder agree on the three fields of a word, and the word of an operation has no
other bit. -/
theorem decodeEncode : Obligations.DecodeEncode :=
  ⟨fun _ i _ => (decode_eq_ok_iff_and_fieldMask _ i).2 (encodeWord_and_fieldMask _ _),
    decode_eq_ok_iff_and_fieldMask⟩

/-- Settles O2: an OP is illegal exactly when it is none of the map's codes, and the listed ranges are the gaps
between these. -/
theorem illegalOpcodes : Obligations.IllegalOpcodes := by
  intro w hstart op
  have hlt : op < 256 := (ctrlWordOp w).isLt
  rw [decode_eq_illegalOp_iff, and_iff_right hstart]
  simp only [opcodeRows, List.map_append, List.map_cons, List.map_nil, List.mem_append, List.mem_cons,
    List.not_mem_nil, or_false, not_or, ← BitVec.toNat_inj, BitVec.toNat_ofNat]
  omega

/-- Settles O3: the fields of each word are read off it. -/
theorem decodeWords : Obligations.DecodeWords :=
  have reads (w : BitVec 32) (i : Instr) := (decode_eq_ok_iff_fields w i).2
  ⟨reads _ _ ⟨rfl, rfl, rfl⟩, reads _ _ ⟨rfl, rfl, rfl⟩, reads _ _ ⟨rfl, rfl, rfl⟩, reads _ _ ⟨rfl, rfl, rfl⟩,
    reads _ _ ⟨rfl, rfl, rfl⟩, reads _ _ ⟨rfl, rfl, rfl⟩, reads _ _ ⟨rfl, rfl, rfl⟩, decode_noStart rfl⟩

/-! ### A request whose OP is illegal (R103, R308) -/

theorem legalOp_mapped {c : Config} {op : Byte} (h : legalOp c op = true) : op ∈ opcodeRows.map Prod.fst := by
  simp only [legalOp, Bool.or_eq_true, Bool.and_eq_true, List.contains_iff_mem, beq_iff_eq] at h
  obtain (h | h) | ⟨rfl, -⟩ := h
  · exact (by decide : _ ⊆ opcodeRows.map Prod.fst) h
  · exact (by decide : _ ⊆ opcodeRows.map Prod.fst) h
  · decide

theorem checkRequest_illegal {c : Config} {cur : Cur} (h : legalOp c cur.op = false) (x : Session) :
    checkRequest c x cur = some .invalidCommand := by
  simp [checkRequest, h]

theorem fetchAccess_illegal {w : Reg} {op : Byte} (h : decode w = .error (.illegalOp op)) (n : Nat) (s : State) :
    fetchAccess (.write 0x00 n w) s = .go (requestIllegal op (ctrlWordL w) s) := by
  simp [fetchAccess, ctrlWritten, h]

/-- Settles O44: the request starts, and the first of its checks ends it. -/
theorem illegalRequest : Obligations.IllegalRequest := by
  intro s x w r hwf hin hs hdec
  have hfetch : fetch s = .go (requestIllegal (ctrlWordOp w) (ctrlWordL w) (setInputs r s)) :=
    (fetch_access hwf hin (accessAligned_write rfl w)).trans (fetchAccess_illegal hdec 4 _)
  obtain ⟨-, hunmapped⟩ := (decode_eq_illegalOp_iff w).1 hdec
  have hlegal : legalOp s.cfg (ctrlWordOp w) = false :=
    Bool.eq_false_iff.2 fun h => hunmapped (legalOp_mapped h)
  exact ⟨_, step_of_fetch_go hfetch, request_refusedAs hs (checkRequest_illegal hlegal _)⟩

/-! ### The plane address (R120) -/

theorem planeBit_eq_ite (c : Config) :
    planeBit c = if c.planeMode = .onfi then c.planeBitOnfi else c.planeBitTrad := by
  unfold planeBit
  cases c.planeMode <;> rfl

theorem planeBit_lt {c : Config} (h : c.wf = true) : planeBit c < 32 := by
  simp [Config.wf] at h
  rw [planeBit_eq_ite]
  split <;> omega

theorem getLsbD_row (c : Config) (a : Reg) (i : Nat) : (row c a).getLsbD i = a.getLsbD (c.rowShift + i) :=
  BitVec.getLsbD_ushiftRight _ _ _

theorem getLsbD_prow {c : Config} (hpb : planeBit c < 32) (a : Reg) (p : Bool) {i : Nat} (hi : i < 32) :
    (prow c a p).getLsbD i = if i = planeBit c then p else (row c a).getLsbD i := by
  have hbit : ∀ b : Bool, ((if b then 1#32 else 0#32) <<< planeBit c).getLsbD i = (decide (i = planeBit c) && b) :=
    fun b => getLsbD_bitAt b hpb i
  have hone : (1#32 <<< planeBit c).getLsbD i = decide (i = planeBit c) := by simpa using hbit true
  rw [prow, BitVec.getLsbD_or, BitVec.getLsbD_and, BitVec.getLsbD_not, hone, hbit]
  by_cases h : i = planeBit c
  · simp [h]
  · simp [h, hi]

/-- Bit i of the plane address: of the column below ROW_SHIFT, of the forced row from there on. -/
theorem getLsbD_paddr (c : Config) (a : Reg) (p : Bool) {i : Nat} (hi : i < 32) :
    (paddr c a p).getLsbD i = if i < c.rowShift then a.getLsbD i else (prow c a p).getLsbD (i - c.rowShift) := by
  have hcol : (BitVec.ofNat 32 (a.toNat % 2 ^ c.rowShift)).getLsbD i = (decide (i < c.rowShift) && a.getLsbD i) := by
    rw [BitVec.getLsbD_ofNat, Nat.testBit_mod_two_pow, BitVec.testBit_toNat]
    simp [hi]
  rw [paddr, BitVec.getLsbD_or, BitVec.getLsbD_shiftLeft, hcol]
  by_cases h : i < c.rowShift
  · simp [h]
  · simp [h, hi]

theorem col_eq_of_getLsbD_eq {c : Config} {a b : Reg} (h : ∀ i < c.rowShift, a.getLsbD i = b.getLsbD i) :
    col c a = col c b := by
  refine col_eq_of_mod_eq le_rfl (Nat.eq_of_testBit_eq fun i => ?_)
  rw [Nat.testBit_mod_two_pow, Nat.testBit_mod_two_pow, BitVec.testBit_toNat, BitVec.testBit_toNat]
  by_cases hi : i < c.rowShift
  · rw [h i hi]
  · simp [hi]

/-- Settles O21: below ROW_SHIFT the plane address has the bits of a, from there on those of the forced row. -/
theorem planeAddress : Obligations.PlaneAddress := by
  intro c a p hwf pb
  have hpb : planeBit c = pb := planeBit_eq_ite c
  obtain ⟨hshift, -⟩ := wf_rowShift_rowCycles hwf
  refine ⟨col_eq_of_getLsbD_eq fun i hi => ?_, fun i hi => ?_⟩
  · rw [getLsbD_paddr c a p (by omega), if_pos hi]
  · rw [getLsbD_row, getLsbD_paddr c a p (by omega), if_neg (by omega), Nat.add_sub_cancel_left,
      getLsbD_prow (planeBit_lt hwf) a p (by omega), hpb]

/-! ### Bus cycles (R111 to R114, R141 to R145) -/

theorem ioDriven_inn {s : State} (h : s.pins.dir = .inn) : ioDriven s = none := by
  simp [ioDriven, h]

theorem ioDriven_out {s : State} (h : s.pins.dir = .out) : ioDriven s = some s.pins.ioOut := by
  simp [ioDriven, h]

/-- Settles O19: the levels and the events are those the cycles are made of, and IO is driven exactly while the
direction is OUT. -/
theorem busCycles : Obligations.BusCycles := by
  refine ⟨fun s d => ⟨setDir_pins_dir d s, fun h => ?_, fun h => ?_⟩, fun c p => ⟨rfl, rfl, rfl, rfl⟩,
    fun b p => ⟨rfl, rfl, rfl, rfl⟩, fun w p => ⟨rfl, rfl, rfl, rfl, rfl, rfl, rfl⟩, fun s hinn => ?_,
    fun s hout => ⟨fun c => ?_, fun b => ?_, fun w => ?_⟩⟩
  · rw [setDir_env_trace, if_neg h]
  · rw [setDir_env_trace, if_pos h, List.append_nil]
  · exact ⟨rfl, ioDriven_inn hinn, readCycle_env_trace s, List.drop_one.symm, readCycle_env_draws s⟩
  · exact ⟨rfl, ioDriven_out hout, cmdCycle_env_trace c s⟩
  · exact ⟨rfl, addrCycle_env_trace b s⟩
  · exact ⟨rfl, writeCycle_env_trace w s⟩

end Sys2Proof.Machine

/-! The identity, status and feature operations (R170 to R174): READ_ID, READ_STATUS, READ_STATUS_ENH, GET_FEATURE and
SET_FEATURE, and what of the sequencer's registers the form of a sequence leaves alone (R38, R41). -/

namespace Sys2Proof.Machine

/-! ### Sequences that set the timer or wcnt only where they may (R38, R41) -/

/-- The micro-operation starts no bulk run, sets the timer only if `tm`, and wcnt only if `wc`. -/
def microFits (tm wc : Bool) : Micro → Bool
  | .startBulk _ => false
  | m => (tm || !microTimes m) && (wc || !microCounts m)

theorem microFits_iff {tm wc : Bool} {m : Micro} : microFits tm wc m = true ↔ (∀ md, m ≠ .startBulk md)
    ∧ (tm = false → microTimes m = false) ∧ (wc = false → microCounts m = false) := by
  cases m <;> cases tm <;> cases wc <;> simp [microFits]

/-- An operation's frame of the sequencer's registers, read off its sequence micro-operation by micro-operation. -/
theorem request_seqFrame_of_fits {s : State} {op : Byte} {l : Bool} {body : Config → Cur → List Micro} {x : Session}
    (tm wc : Bool) (hs : Startable s x) (htm : usesTimer op = tm) (hwc : usesLen op = wc)
    (h : (body s.cfg (latchRequest op l s)).all (microFits tm wc) = true) :
    SeqFrame s (request op l body s) op := by
  subst htm hwc
  have hfits := fun m hm => microFits_iff.1 (List.all_eq_true.1 h m hm)
  refine request_seqFrame hs (fun m hm => ?_) (fun ht m hm => ?_) (fun hw m hm => ?_)
  all_goals obtain ⟨hplain, htimes, hcounts⟩ := hfits m hm
  · exact hplain
  · exact htimes ht
  · exact hcounts hw

section Fits

variable (tm wc : Bool)

@[simp] theorem seqCmd_fits (c : Byte) : (seqCmd c).all (microFits tm wc) = true := by
  simp [seqCmd, microFits, microTimes, microCounts]

@[simp] theorem seqAddrs_fits (bs : List Byte) : (seqAddrs bs).all (microFits tm wc) = true := by
  induction bs with
  | nil => rfl
  | cons b bs ih => simp [seqAddrs, ih, microFits, microTimes, microCounts]

@[simp] theorem seqWriteBytes_fits (bs : List Byte) : (seqWriteBytes bs).all (microFits tm wc) = true := by
  induction bs with
  | nil => rfl
  | cons b bs ih => simp [seqWriteBytes, ih, microFits, microTimes, microCounts]

@[simp] theorem seqReadBytes_fits (lo n : Nat) : (seqReadBytes lo n).all (microFits tm wc) = true := by
  induction n generalizing lo with
  | zero => rfl
  | succ n ih => simp [seqReadBytes, ih, microFits, microTimes, microCounts]

@[simp] theorem seqReadStatusByte_fits : seqReadStatusByte.all (microFits tm wc) = true := by
  simp [seqReadStatusByte, microFits, microTimes, microCounts]

@[simp] theorem seqReadSR_fits : seqReadSR.all (microFits tm wc) = true := by simp [seqReadSR]

@[simp] theorem seqSampleReady_fits (c : Config) : (seqSampleReady c).all (microFits tm wc) = true :=
  List.all_eq_true.2 fun m hm => by
    obtain ⟨htimes, hcounts, hplain⟩ := sampleReady_micros c m hm
    exact microFits_iff.2 ⟨hplain, fun _ => htimes, fun _ => hcounts⟩

@[simp] theorem raiseUnlessReady_fits (r : Result) : microFits tm wc (.raiseUnlessReady r) = true := by
  simp [microFits, microTimes, microCounts]

@[simp] theorem seqBusyCheck_fits (c : Config) : (seqBusyCheck c).all (microFits tm wc) = true := by
  simp [seqBusyCheck]

@[simp] theorem seqWaitReady_fits (c : Config) : (seqWaitReady c).all (microFits true wc) = true := by
  simp [seqWaitReady, microFits, microCounts]

@[simp] theorem storeId_fits : microFits tm wc (.act .storeId) = true := by
  simp [microFits, microTimes, microCounts]

@[simp] theorem storeFeature_fits : microFits tm wc (.act .storeFeature) = true := by
  simp [microFits, microTimes, microCounts]

@[simp] theorem delay_fits (t : BitVec 32) : microFits true wc (.act (.delay t)) = true := by
  simp [microFits, microCounts]

end Fits

/-! ### Ends shared by these operations -/

theorem Startable.resume {s : State} {x : Session} (h : Startable s x) : s.seq.resume = none := h.2.1

/-- The checks of R310 pass for an operation that uses neither LEN nor the column. -/
theorem checkRequest_noOperands {s : State} {op : Byte} {x : Session} (hs : Startable s x) (l : Bool)
    (hlegal : legalOp s.cfg op = true) (hadmits : sessionAdmits x op = true) (hlen : usesLen op = false)
    (hcol : op ≠ 0x12#8) : checkRequest s.cfg s.st.session (latchRequest op l s) = none :=
  checkRequest_startable hs hlegal hadmits (fun h => by simp [hlen] at h) (fun h => absurd h hcol)

/-- An operation whose whole sequence is a run of cycles that transfers no words. -/
theorem request_cycles {s t : State} {op : Byte} {l : Bool} {body : Config → Cur → List Micro} {x : Session}
    {es : List Event} {n N : Nat} (hs : Startable s x)
    (hc : checkRequest s.cfg s.st.session (latchRequest op l s) = none)
    (hdoes : Does N (body s.cfg (latchRequest op l s)) (startOp op l body s) t es n) (hN : N ≤ 131200)
    (hstill : Still (startOp op l body s) t) :
    EndedAs s (request op l body s) op l .success x es n t.st.lastSr := by
  rw [request_runs hs hc hdoes.piece (hdoes.span.resume.trans hs.resume) (by unfold opBudget; omega)]
  exact endedAs_endOp_same hs .success hdoes.span hstill.bufA hstill.bufC

/-- No cycle reads the identity registers or the host registers: what an operation latched of them stands in cur. -/
theorem Span.with_ids_regs {s t : State} {es : List Event} {n : Nat} (h : Span s t es n) (ids : IdRegs)
    (regs : HostRegs) : Span { s with ids := ids, regs := regs } { t with ids := ids, regs := regs } es n :=
  ⟨h.obs, h.cfg, h.bulk, rfl, rfl, h.st, h.resume, h.cur, h.inputs, h.reads⟩

/-- t is s after the cycles es, answered by `used` answers, with values stored in ID_LO, ID_HI or FDATA. -/
structure Stored (s t : State) (es : List Event) (used : Nat) : Prop where
  span : Span { s with ids := t.ids, regs := t.regs } t es used
  ids : t.ids = { s.ids with idLo := t.ids.idLo, idHi := t.ids.idHi }
  regs : t.regs = { s.regs with fdata := t.regs.fdata }

/-- An operation whose sequence is a run of cycles but for what it stores (R170, R173). -/
theorem request_stored {s t : State} {op : Byte} {l : Bool} {body : Config → Cur → List Micro} {x : Session}
    {es : List Event} {n N : Nat} (hs : Startable s x)
    (hc : checkRequest s.cfg s.st.session (latchRequest op l s) = none)
    (hpiece : Piece N (body s.cfg (latchRequest op l s)) (startOp op l body s) t) (hN : N ≤ 131200)
    (hstored : Stored (startOp op l body s) t es n) (hstill : Still (startOp op l body s) t) :
    Ended s (request op l body s) op l .success x ∧ Observed s (request op l body s) es n
      ∧ (request op l body s).st.lastSr = t.st.lastSr ∧ (request op l body s).bufA = s.bufA
      ∧ (request op l body s).ids = t.ids ∧ (request op l body s).regs.fdata = t.regs.fdata := by
  obtain ⟨hsp, hids, hregs⟩ := hstored
  have hres : t.seq.resume = none := hsp.resume.trans hs.resume
  have hsession : t.st.session = x := by rw [hsp.st]; exact hs.session
  have hunstored : Span (startOp op l body s)
      { t with ids := (startOp op l body s).ids, regs := (startOp op l body s).regs } es n :=
    hsp.with_ids_regs _ _
  obtain ⟨hended, hobs, hsr, hA, -, -⟩ :=
    ended_endOp hs .success x hunstored hstill.bufC t.ids.idLo t.ids.idHi t.regs.fdata
  have hstate : ({ t with st := { t.st with session := x }
                          ids := { (startOp op l body s).ids with idLo := t.ids.idLo, idHi := t.ids.idHi }
                          regs := { (startOp op l body s).regs with fdata := t.regs.fdata } } : State) = t := by
    rw [← hids, ← hregs, ← hsession]
  rw [hstate] at hended hobs hsr hA
  rw [request_runs hs hc hpiece hres (by unfold opBudget; omega)]
  exact ⟨hended, hobs, hsr, hA.trans hstill.bufA, by rw [endOp_host hres], by rw [endOp_host hres]⟩

/-- The busy check of a device that shows ready, a command byte and an address group. -/
theorem does_commandAddrs {s : State} (hready : readyAt s 0 = true) (c : Byte) (bs : List Byte) :
    ∃ t, Does (5 + 2 + 2 * bs.length) (seqBusyCheck s.cfg ++ seqCmd c ++ seqAddrs bs) s t
        (sampleEvents s 0 ++ [.cmd c] ++ addrEvents bs) 1
      ∧ Still s t ∧ t.st.lastSr = lastSrAt s 0 := by
  obtain ⟨t1, busy, still1, sr1⟩ := does_busyCheck s hready
  obtain ⟨t2, cmd, quiet2⟩ := does_cmd c t1
  obtain ⟨t3, addrs, quiet3⟩ := does_addrs bs t2
  have quiet := quiet2.trans quiet3
  exact ⟨t3, (busy.append cmd).append addrs, still1.trans quiet.still, quiet.lastSr.trans sr1⟩

/-! ### READ_ID, READ_STATUS and READ_STATUS_ENH (R170 to R172) -/

/-- Settles O23: a device that shows busy ends the operation at the busy check; from one that shows ready the bytes
read are stored at the end of the run of cycles. -/
theorem readId : Obligations.ReadId := by
  intro s l hwf hs
  have hc := checkRequest_noOperands (op := 0x01) hs l rfl rfl rfl (by decide)
  refine ⟨_, rfl, request_seqFrame_of_fits false false hs rfl rfl (by simp [seqReadId]),
    fun hbusy => ?_, fun hready => ?_⟩
  · exact request_busy hs hbusy hc (by simp only [seqReadId, List.append_assoc]; rfl)
  · obtain ⟨-, hbytes, -⟩ := wf_bounds hwf
    obtain ⟨t, hpiece, hsp, hstill, hsr, hstored, hlo, hhi⟩ :=
      does_readId (s := startOp 0x01 l seqReadId s) hready hbytes (latchRequest 0x01 l s)
    have hstores : Stored (startOp 0x01 l seqReadId s) t (readIdEvents s 0) (1 + s.cfg.idBytes) :=
      ⟨hsp.with_ids_regs t.ids t.regs, by simp only [← hlo, ← hhi], by rw [hsp.regs]⟩
    obtain ⟨hended, hobs, hsr', hA, hids, hfdata⟩ := request_stored hs hc hpiece (by omega) hstores hstill
    exact ⟨hended, hobs, by rw [hids]; exact hstored, hsr'.trans hsr, hfdata.trans (by rw [hsp.regs]; rfl), hA⟩

/-- Settles O24: the sequence is one status read. -/
theorem readStatus : Obligations.ReadStatus := by
  intro s l _ hs
  have hc := checkRequest_noOperands (op := 0x02) hs l rfl rfl rfl (by decide)
  obtain ⟨t, hdoes, hstill, hsr, -⟩ := does_readSR (startOp 0x02 l seqReadStatus s)
  refine ⟨_, rfl, request_seqFrame_of_fits false false hs rfl rfl (by simp [seqReadStatus]), ?_⟩
  have hended := request_cycles (body := seqReadStatus) hs hc hdoes (by omega) hstill
  rw [hsr] at hended
  exact hended

/-- READ_STATUS_ENH: the command byte, the row group and one status byte. -/
theorem does_readStatusEnh (s : State) (cur : Cur) :
    ∃ t, Does (2 + 2 * (rowGroup s.cfg cur.addr).length + 2) (seqReadStatusEnh s.cfg cur) s t
        ([.cmd s.cfg.enhStatusCmd] ++ addrEvents (rowGroup s.cfg cur.addr) ++ [.rd (answer s 0)]) 1
      ∧ Still s t ∧ t.st.lastSr = answerByte s 0 := by
  obtain ⟨t1, cmd, quiet1⟩ := does_cmd s.cfg.enhStatusCmd s
  obtain ⟨t2, addrs, quiet2⟩ := does_addrs (rowGroup s.cfg cur.addr) t1
  obtain ⟨t3, read, still3, sr3, -⟩ := does_statusByte t2
  have upto := cmd.append addrs
  have hdoes := upto.append read
  rw [answer_after upto.span] at hdoes
  exact ⟨t3, hdoes, (quiet1.trans quiet2).still.trans still3, sr3.trans (answerByte_after upto.span 0)⟩

/-- Settles O25: with HAS_ENH_STATUS = 1 the checks pass and the sequence runs, without it the first check fails. -/
theorem readStatusEnh : Obligations.ReadStatusEnh := by
  intro s l _ hs
  refine ⟨_, rfl, request_seqFrame_of_fits false false hs rfl rfl (by simp [seqReadStatusEnh]),
    fun henh => ?_, fun hno => ?_⟩
  · have hlegal : legalOp s.cfg 0x03 = true := by simp [legalOp, henh]
    have hc := checkRequest_noOperands hs l hlegal rfl rfl (by decide)
    obtain ⟨t, hdoes, hstill, hsr⟩ := does_readStatusEnh (startOp 0x03 l seqReadStatusEnh s) (latchRequest 0x03 l s)
    have hrow := rowGroup_length s.cfg s.regs.addr
    have hended := request_cycles hs hc hdoes (by simp only [latchRequest, startOp]; omega) hstill
    rw [hsr] at hended
    exact hended
  · have hillegal : legalOp s.cfg 0x03 = false := by simp [legalOp, hno]
    exact request_refusedAs hs (checkRequest_illegal hillegal _)

/-! ### GET_FEATURE and SET_FEATURE (R173, R174) -/

/-- FDATA after the store: the first byte read in its low byte (R26). -/
theorem byteOf_storeFeature {s t : State} {b : Nat} (htmp : t.seq.tmp.take 4 = (List.range 4).map fun i =>
    answerByte s (b + i)) {k : Nat} (hk : k < 4) : byteOf k (storeFeature t).regs.fdata = answerByte s (b + k) := by
  simp only [storeFeature, byteOf_pack4 _ _ _ _ _ hk]
  have hbyte := getD_of_take_eq htmp hk
  interval_cases k <;> exact hbyte

/-- GET_FEATURE of a device that shows ready: but for FDATA, a run of cycles. -/
theorem does_getFeature {s : State} (hready : readyAt s 0 = true) (cur : Cur) :
    ∃ t, Piece 19 (seqGetFeature s.cfg cur) s t
      ∧ Stored s t (sampleEvents s 0 ++ [.cmd 0xEE, .addr cur.faddr, .delay s.cfg.tFeatGet] ++ readEvents s 1 4) 5
      ∧ Still s t ∧ t.st.lastSr = lastSrAt s 0 ∧ t.ids = s.ids
      ∧ ∀ k < 4, byteOf k t.regs.fdata = answerByte s (1 + k) := by
  obtain ⟨t1, command, still1, sr1⟩ := does_commandAddrs hready 0xEE [cur.faddr]
  obtain ⟨t2, delay, quiet2⟩ := does_delay s.cfg.tFeatGet t1
  obtain ⟨t3, read, still3, sr3, htmp⟩ := does_readBytes 0 4 t2 rfl
  have upto := command.append delay
  have run := upto.append read
  have hev : readEvents t2 0 4 = readEvents s 1 4 := readEvents_after upto.span 0 4
  have hsp : Span s t3 (sampleEvents s 0 ++ [.cmd 0xEE, .addr cur.faddr, .delay s.cfg.tFeatGet] ++ readEvents s 1 4)
      5 := by
    have := run.span
    rw [hev] at this
    simpa [addrEvents] using this
  have hstill : Still s t3 := still1.trans (quiet2.still.trans still3)
  have hbyte : ∀ i, answerByte t2 i = answerByte s (1 + i) := answerByte_after upto.span
  refine ⟨storeFeature t3, run.piece.append (Piece.act .storeFeature t3), ⟨hsp.with_ids_regs t3.ids _, ?_, ?_⟩,
    ⟨hstill.bufA, hstill.bufC, hstill.frees, hstill.wcnt⟩, sr3.trans (quiet2.lastSr.trans sr1), hsp.ids,
    fun k hk => byteOf_storeFeature ?_ hk⟩
  · rw [show (storeFeature t3).ids = s.ids from hsp.ids]
  · rw [← hsp.regs]; rfl
  · simpa [hbyte] using htmp

/-- Settles O26: as READ_ID, with FDATA in the place of ID_LO and ID_HI. -/
theorem getFeature : Obligations.GetFeature := by
  intro s l _ hs
  have hc := checkRequest_noOperands (op := 0x04) hs l rfl rfl rfl (by decide)
  refine ⟨_, rfl, request_seqFrame_of_fits true false hs rfl rfl (by simp [seqGetFeature]),
    fun hbusy => ?_, fun hready => ?_⟩
  · exact request_busy hs hbusy hc (by simp only [seqGetFeature, List.append_assoc]; rfl)
  · obtain ⟨t, hpiece, hstores, hstill, hsr, hids, hbytes⟩ :=
      does_getFeature (s := startOp 0x04 l seqGetFeature s) hready (latchRequest 0x04 l s)
    obtain ⟨hended, hobs, hsr', hA, hids', hfdata⟩ := request_stored hs hc hpiece (by omega) hstores hstill
    exact ⟨hended, hobs, by rw [hfdata]; exact hbytes, hsr'.trans hsr, hids'.trans hids, hA⟩

/-- Settles O27: past the busy check the operation is a run of cycles, which reads no status in RB_PIN mode, and a
ready wait with no status check. -/
theorem setFeature : Obligations.SetFeature := by
  intro s l _ hs
  have hc := checkRequest_noOperands (op := 0x05) hs l rfl rfl rfl (by decide)
  refine ⟨_, rfl, request_seqFrame_of_fits true false hs rfl rfl (by simp [seqSetFeature]),
    fun hbusy => ?_, fun hready => ?_⟩
  · exact request_busy hs hbusy hc (by simp only [seqSetFeature, List.append_assoc]; rfl)
  · obtain ⟨t1, command, still1, sr1⟩ :=
      does_commandAddrs (s := startOp 0x05 l seqSetFeature s) hready 0xEF [s.regs.faddr]
    obtain ⟨t2, write, quiet2⟩ := does_writeBytes ((List.range 4).map fun k => byteOf k s.regs.fdata) t1
    have hstill := still1.trans quiet2.still
    have hpin : s.cfg.rbSource = .rbPin → t2.st.lastSr = s.st.lastSr := fun hpin => by
      rw [quiet2.lastSr, sr1, lastSrAt_startOp, lastSrAt, hpin]
    have hended := request_wait (mid := []) hs hc (List.append_assoc _ _ _) (command.append write) (by simp)
      hstill.bufA hstill.bufC hpin (fun u hu => piece_noSession hu)
    simpa [addrEvents, featureEvents, Function.comp_def] using hended

end Sys2Proof.Machine

/-! The read operations (R190 to R193): PAGE_READ, RANDOM_READ, CACHE_READ_BEGIN and CACHE_READ_CONT. -/

namespace Sys2Proof.Machine

/-! ### Sequences that may set wcnt, or set the session (R38, R40) -/

@[simp] theorem setSession_fits (tm wc : Bool) (x : Session) : microFits tm wc (.act (.setSession x)) = true := by
  simp [microFits, microTimes, microCounts]

@[simp] theorem seqReadWords_fits (tm : Bool) (n : Nat) : (seqReadWords n).all (microFits tm true) = true := by
  have hrun : (seqRun .inn .rdBufA n).all (microFits tm true) = true := by
    induction n with
    | zero => rfl
    | succ n ih => simp [seqRun, ih, microFits, microTimes]
  simp [seqReadWords, hrun, microFits, microTimes]

@[simp] theorem seqPageSetup_fits (wc : Bool) (c : Config) (cur : Cur) :
    (seqPageSetup c cur).all (microFits true wc) = true := by
  simp [seqPageSetup]

/-! ### The page read setup (R190, R192) -/

theorem Does.mono {N M used : Nat} {kk : List Micro} {s t : State} {es : List Event} (h : Does N kk s t es used)
    (hNM : N ≤ M) : Does M kk s t es used :=
  ⟨fun op k => by obtain ⟨n, hn, g⟩ := h.piece op k; exact ⟨n, hn.trans hNM, g⟩, h.span⟩

theorem does_pageSetup (cur : Cur) (s : State) :
    ∃ t, Does 15 (seqPageSetup s.cfg cur) s t (pageSetupEvents s.cfg cur.addr) 0 ∧ Quiet s t := by
  obtain ⟨t1, cmd, quiet1⟩ := does_cmd 0x00 s
  obtain ⟨t2, addrs, quiet2⟩ := does_addrs (fullGroup s.cfg cur.addr) t1
  obtain ⟨t3, confirm, quiet3⟩ := does_cmd 0x30 t2
  obtain ⟨t4, delay, quiet4⟩ := does_delay s.cfg.tR t3
  have run := ((cmd.append addrs).append confirm).append delay
  have hevents : [.cmd 0x00] ++ addrEvents (fullGroup s.cfg cur.addr) ++ [.cmd 0x30] ++ [.delay s.cfg.tR]
      = pageSetupEvents s.cfg cur.addr := List.append_assoc _ _ _
  rw [hevents] at run
  have hfull := fullGroup_length s.cfg cur.addr
  exact ⟨t4, run.mono (by omega), (quiet1.trans quiet2).trans (quiet3.trans quiet4)⟩

/-- The busy check of a device that shows ready, and the page read setup. -/
theorem does_checkedPageSetup {s : State} (hready : readyAt s 0 = true) (cur : Cur) :
    ∃ t, Does 20 (seqBusyCheck s.cfg ++ seqPageSetup s.cfg cur) s t
        (sampleEvents s 0 ++ pageSetupEvents s.cfg cur.addr) 1
      ∧ Still s t ∧ t.st.lastSr = lastSrAt s 0 := by
  obtain ⟨t, busy, still, sr⟩ := does_busyCheck s hready
  obtain ⟨u, setup, quiet⟩ := does_pageSetup cur t
  rw [busy.span.cfg] at setup
  exact ⟨u, busy.append setup, still.trans quiet.still, quiet.lastSr.trans sr⟩

/-! ### PAGE_READ and RANDOM_READ (R190, R191) -/

/-- The checks of R310 pass for an operation that uses LEN, within BUF_WORDS, and not the column. -/
theorem checkRequest_lenOperand {s : State} {op : Byte} {x : Session} (hs : Startable s x) (l : Bool)
    (hlegal : legalOp s.cfg op = true) (hadmits : sessionAdmits x op = true)
    (hlen : s.regs.len.toNat ≤ s.cfg.bufWords) (hcol : op ≠ 0x12#8) :
    checkRequest s.cfg s.st.session (latchRequest op l s) = none :=
  checkRequest_startable hs hlegal hadmits (fun _ => hlen) (fun h => absurd h hcol)

/-- Settles O28: a device that shows busy ends the operation at the busy check; from one that shows ready the data
read follows the page read setup, and the session is left alone. -/
theorem pageRead : Obligations.PageRead := by
  intro s l hwf hs hlen n
  have hc := checkRequest_lenOperand (op := 0x10) hs l rfl rfl hlen (by decide)
  refine ⟨_, rfl, request_seqFrame_of_fits true true hs rfl rfl (by simp [seqPageRead]),
    fun hbusy => ?_, fun hready => ?_⟩
  · exact request_busy hs hbusy hc (by simp only [seqPageRead, List.append_assoc]; rfl)
  · obtain ⟨t, setup, still, sr⟩ :=
      does_checkedPageSetup (s := startOp 0x10 l seqPageRead s) hready (latchRequest 0x10 l s)
    have hseq : seqPageRead s.cfg (latchRequest 0x10 l s)
        = seqBusyCheck s.cfg ++ seqPageSetup s.cfg (latchRequest 0x10 l s) ++ seqReadWords n ++ [] := by
      rw [seqPageRead, latchRequest_len, List.append_nil]
    obtain ⟨hended, hobs, hread, hsr⟩ :=
      request_read hs hwf hc hlen rfl hseq setup (by omega) still (fun _ => piece_noSession)
    exact ⟨hended, hobs, hread, hsr.trans sr⟩

/-- A command byte, the column group and a second command byte. -/
theorem does_columnCommand (c d : Byte) (a : Reg) (s : State) :
    ∃ t, Does 8 (seqCmd c ++ seqAddrs (colGroup s.cfg a) ++ seqCmd d) s t
        ([.cmd c] ++ addrEvents (colGroup s.cfg a) ++ [.cmd d]) 0 ∧ Quiet s t := by
  obtain ⟨t1, cmd, quiet1⟩ := does_cmd c s
  obtain ⟨t2, addrs, quiet2⟩ := does_addrs (colGroup s.cfg a) t1
  obtain ⟨t3, confirm, quiet3⟩ := does_cmd d t2
  exact ⟨t3, (cmd.append addrs).append confirm, (quiet1.trans quiet2).trans quiet3⟩

/-- Settles O29: the data read follows the column command at once. -/
theorem randomRead : Obligations.RandomRead := by
  intro s l hwf hs hlen n
  have hc := checkRequest_lenOperand (op := 0x11) hs l rfl rfl hlen (by decide)
  obtain ⟨t, command, quiet⟩ := does_columnCommand 0x05 0xE0 s.regs.addr (startOp 0x11 l seqRandomRead s)
  have hseq : seqRandomRead s.cfg (latchRequest 0x11 l s)
      = seqCmd 0x05 ++ seqAddrs (colGroup s.cfg s.regs.addr) ++ seqCmd 0xE0 ++ seqReadWords n ++ [] := by
    rw [seqRandomRead, latchRequest_len, List.append_nil]
    rfl
  obtain ⟨hended, hobs, hread, hsr⟩ :=
    request_read hs hwf hc hlen rfl hseq command (by omega) quiet.still (fun _ => piece_noSession)
  rw [Nat.zero_add] at hobs
  exact ⟨_, rfl, request_seqFrame_of_fits false true hs rfl rfl (by simp [seqRandomRead]), hended, hobs, hread,
    hsr.trans quiet.lastSr⟩

/-! ### CACHE_READ_BEGIN and CACHE_READ_CONT (R192, R193) -/

/-- Settles O30: as PAGE_READ, with the session set in the place of the data read. -/
theorem cacheReadBegin : Obligations.CacheReadBegin := by
  intro s l _ hs hcol
  have hc := checkRequest_startable (op := 0x12) (l := l) hs rfl rfl nofun (fun _ => hcol)
  refine ⟨_, rfl, request_seqFrame_of_fits true false hs rfl rfl (by simp [seqCacheReadBegin]),
    fun hbusy => ?_, fun hready => ?_⟩
  · exact request_busy hs hbusy hc (by simp only [seqCacheReadBegin, List.append_assoc]; rfl)
  · obtain ⟨t, setup, still, sr⟩ :=
      does_checkedPageSetup (s := startOp 0x12 l seqCacheReadBegin s) hready (latchRequest 0x12 l s)
    obtain ⟨hended, hobs, hsr, hA, hfdata, hids⟩ :=
      request_done (body := seqCacheReadBegin) hs hc rfl setup (by omega) (piece_setSession .cread t) still.bufC
    exact ⟨hended, hobs, ⟨hfdata, by rw [hids], by rw [hids], hA.trans still.bufA⟩, hsr.trans sr⟩

/-- The last line of CACHE_READ_CONT: with L the session is closed, without it it is left open. -/
theorem piece_closeSession (l : Bool) {u : State} (h : u.st.session = .cread) :
    Piece 1 (if l then [.act (.setSession .none)] else []) u (setSession (if l then .none else .cread) u) := by
  cases l with
  | true => exact piece_setSession .none u
  | false => exact piece_noSession h

/-- Settles O31: the data read follows the command byte and the delay, and L decides the session at the end. -/
theorem cacheReadCont : Obligations.CacheReadCont := by
  intro s l hwf hs hlen n
  have hc := checkRequest_lenOperand (op := 0x13) hs l rfl rfl hlen (by decide)
  obtain ⟨t, cmd, quiet⟩ := does_cmd (if l then 0x3F else 0x31) (startOp 0x13 l seqCacheReadCont s)
  obtain ⟨u, delay, quiet'⟩ := does_delay s.cfg.tRcbsy t
  have hseq : seqCacheReadCont s.cfg (latchRequest 0x13 l s)
      = seqCmd (if l then 0x3F else 0x31) ++ [.act (.delay s.cfg.tRcbsy)] ++ seqReadWords n
        ++ (if l then [.act (.setSession .none)] else []) := by
    rw [seqCacheReadCont, latchRequest_len]
    rfl
  obtain ⟨hended, hobs, hread, hsr⟩ := request_read hs hwf hc hlen rfl hseq (cmd.append delay) (by omega)
    (quiet.trans quiet').still (fun _ => piece_closeSession l)
  simp only [Nat.zero_add] at hobs
  refine ⟨_, rfl, request_seqFrame_of_fits true true hs rfl rfl ?_, hended, hobs, hread,
    hsr.trans (quiet.trans quiet').lastSr⟩
  rw [hseq]
  cases l <;> simp

end Sys2Proof.Machine

/-! The program and erase operations (R210 to R216): PAGE_PROGRAM, RPROG_BEGIN, RPROG_INPUT, RPROG_END, CACHE_PROGRAM
and BLOCK_ERASE. -/

namespace Sys2Proof.Machine

/-! ### Sequences that send words, or check a status (R38, R41) -/

@[simp] theorem seqWriteWords_fits (tm : Bool) (n : Nat) : (seqWriteWords n).all (microFits tm true) = true := by
  have hrun : (seqRun .out .wrBuf n).all (microFits tm true) = true := by
    induction n with
    | zero => rfl
    | succ n ih => simp [seqRun, ih, microFits, microTimes]
  simp [seqWriteWords, hrun, microFits, microTimes]

@[simp] theorem seqProgramLoad_fits (tm : Bool) (c : Config) (cur : Cur) (a : Reg) :
    (seqProgramLoad c cur a).all (microFits tm true) = true := by
  simp [seqProgramLoad]

@[simp] theorem seqStatusCheck_fits (tm wc : Bool) (r : Result) : (seqStatusCheck r).all (microFits tm wc) = true := by
  simp [seqStatusCheck, microFits, microTimes, microCounts]

/-! ### Ends shared by these operations -/

/-- The length a request latches is one the data load can count (R38). -/
theorem latchRequest_len_le {s : State} (op : Byte) (l : Bool) (hwf : s.cfg.wf = true)
    (hlen : s.regs.len.toNat ≤ s.cfg.bufWords) : (latchRequest op l s).len.toNat ≤ 65536 := by
  rw [latchRequest_len]
  exact hlen.trans (wf_bounds hwf).1

/-- In RB_PIN mode an observation leaves LAST_SR alone (R50). -/
theorem lastSrAt_rbPin {s : State} (hpin : s.cfg.rbSource = .rbPin) (n : Nat) : lastSrAt s n = s.st.lastSr := by
  simp [lastSrAt, hpin]

/-- An operation whose sequence is a run of cycles that stores no data, followed by the session's new value. -/
theorem request_doneAs {s t : State} {op : Byte} {l : Bool} {body : Config → Cur → List Micro} {kk mid : List Micro}
    {x y : Session} {es : List Event} {b N : Nat} (hs : Startable s x)
    (hc : checkRequest s.cfg s.st.session (latchRequest op l s) = none)
    (hq : body s.cfg (latchRequest op l s) = kk ++ mid) (hk : Does N kk (startOp op l body s) t es b)
    (hN : N ≤ 131200) (hmid : Piece 1 mid t (setSession y t)) (hbuf : BuffersKept s t) :
    EndedAs s (request op l body s) op l .success y es b t.st.lastSr := by
  obtain ⟨hA, hC⟩ := hbuf
  obtain ⟨hended, hobs, hsr, hA', hfdata, hids⟩ := request_done hs hc hq hk hN hmid hC
  exact ⟨hended, hobs, ⟨hfdata, by rw [hids], by rw [hids], hA'.trans hA⟩, hsr⟩

/-- An operation that is a run of cycles kk and then the wait and the status check, in a session it leaves alone. -/
theorem request_waitStatus_same {s t : State} {op : Byte} {l : Bool} {body : Config → Cur → List Micro}
    {kk : List Micro} {x : Session} {es : List Event} {b N : Nat} {timeout failed : Result} (hs : Startable s x)
    (hc : checkRequest s.cfg s.st.session (latchRequest op l s) = none)
    (hq : body s.cfg (latchRequest op l s) = kk ++ seqWaitStatus s.cfg timeout failed)
    (hk : Does N kk (startOp op l body s) t es b) (hN : N ≤ 131200) (hbuf : BuffersKept s t)
    (hL : s.cfg.rbSource = .rbPin → t.st.lastSr = s.st.lastSr) :
    WaitStatusEnds s (request op l body s) op l timeout failed x es b := by
  have hsession : t.st.session = x := by rw [hk.span.st]; exact hs.session
  have hspan : Span (startOp op l body s) (setSession x t) es b := by
    rw [setSession_same hsession]
    exact hk.span
  exact request_waitStatus (mid := []) hs hc hq hk.piece hN hsession hspan hbuf.1 hbuf.2 hL
    (fun _ => piece_noSession)

/-! ### The data load (R149, R210) -/

theorem sentEvents_congr {s u : State} (hcfg : u.cfg = s.cfg) (hA : u.bufA = s.bufA)
    (hf : u.env.frees = s.env.frees) (n : Nat) : sentEvents u n = sentEvents s n := by
  simp only [sentEvents, sentWord, hcfg, hA, hf]

/-- The busy check of a device that shows ready, and the data load of a program at address a. -/
theorem does_checkedProgramLoad {s : State} (hready : readyAt s 0 = true) (cur : Cur) (a : Reg)
    (hn : cur.len.toNat ≤ 65536) :
    ∃ t, Does 131090 (seqBusyCheck s.cfg ++ seqProgramLoad s.cfg cur a) s t
        (sampleEvents s 0 ++ programEvents s a cur.len.toNat) 1
      ∧ BuffersKept s t ∧ t.st.lastSr = lastSrAt s 0 := by
  obtain ⟨t, busy, still, sr⟩ := does_busyCheck s hready
  obtain ⟨u, load, hA, hC, sr'⟩ := does_programLoad a cur.len.toNat t (by omega)
  have hcfg : t.cfg = s.cfg := busy.span.cfg
  rw [hcfg, programEvents_congr hcfg still.bufA still.frees, ← List.append_assoc] at load
  exact ⟨u, (busy.append load).mono (by omega), ⟨hA.trans still.bufA, hC.trans still.bufC⟩, sr'.trans sr⟩

/-- The same with a confirm byte c after it. -/
theorem does_checkedProgram {s : State} (hready : readyAt s 0 = true) (cur : Cur) (a : Reg) (c : Byte)
    (hn : cur.len.toNat ≤ 65536) :
    ∃ t, Does 131092 (seqBusyCheck s.cfg ++ seqProgramLoad s.cfg cur a ++ seqCmd c) s t
        (sampleEvents s 0 ++ programEvents s a cur.len.toNat ++ [.cmd c]) 1
      ∧ BuffersKept s t ∧ t.st.lastSr = lastSrAt s 0 := by
  obtain ⟨t, load, hbuf, sr⟩ := does_checkedProgramLoad hready cur a hn
  obtain ⟨u, confirm, quiet⟩ := does_cmd c t
  exact ⟨u, load.append confirm, hbuf.trans ⟨quiet.bufA, quiet.bufC⟩, quiet.lastSr.trans sr⟩

/-! ### PAGE_PROGRAM (R210) -/

/-- Settles O32: a device that shows busy ends the operation at the busy check; from one that shows ready the wait and
the status check follow the data load and its confirm byte. -/
theorem pageProgram : Obligations.PageProgram := by
  intro s l hwf hs hlen
  have hc := checkRequest_lenOperand (op := 0x20) hs l rfl rfl hlen (by decide)
  refine ⟨_, rfl, request_seqFrame_of_fits true true hs rfl rfl (by simp [seqPageProgram]),
    fun hbusy => ?_, fun hready => ?_⟩
  · exact request_busy hs hbusy hc (by simp only [seqPageProgram, List.append_assoc]; rfl)
  · obtain ⟨t, program, hbuf, sr⟩ := does_checkedProgram (s := startOp 0x20 l seqPageProgram s) hready
      (latchRequest 0x20 l s) s.regs.addr 0x10 (latchRequest_len_le 0x20 l hwf hlen)
    rw [latchRequest_len] at program
    refine request_waitStatus_same hs hc ?_ program (by omega) hbuf fun hpin => sr.trans (lastSrAt_rbPin hpin 0)
    simp only [seqPageProgram, seqWaitStatus, List.append_assoc]
    rfl

/-! ### RPROG_BEGIN, RPROG_INPUT and RPROG_END (R211 to R213) -/

/-- Settles O33: as PAGE_PROGRAM up to the data load, after which the session is set. -/
theorem rprogBegin : Obligations.RprogBegin := by
  intro s l hwf hs hlen
  have hc := checkRequest_lenOperand (op := 0x21) hs l rfl rfl hlen (by decide)
  refine ⟨_, rfl, request_seqFrame_of_fits false true hs rfl rfl (by simp [seqRprogBegin]),
    fun hbusy => ?_, fun hready => ?_⟩
  · exact request_busy hs hbusy hc (by simp only [seqRprogBegin, List.append_assoc]; rfl)
  · obtain ⟨t, load, hbuf, sr⟩ := does_checkedProgramLoad (s := startOp 0x21 l seqRprogBegin s) hready
      (latchRequest 0x21 l s) s.regs.addr (latchRequest_len_le 0x21 l hwf hlen)
    rw [latchRequest_len] at load
    have hended := request_doneAs hs hc rfl load (by omega) (piece_setSession .rprog t) hbuf
    rw [sr] at hended
    exact hended

/-- RPROG_INPUT: the command byte, the column group and the words of buffer A. -/
theorem does_rprogInput (cur : Cur) (s : State) (hn : cur.len.toNat ≤ 65536) :
    ∃ t, Does 131079 (seqRprogInput s.cfg cur) s t
        ([.cmd 0x85] ++ addrEvents (colGroup s.cfg cur.addr) ++ sentEvents s cur.len.toNat) 0
      ∧ BuffersKept s t ∧ t.st.lastSr = s.st.lastSr := by
  obtain ⟨t1, cmd, quiet1⟩ := does_cmd 0x85 s
  obtain ⟨t2, addrs, quiet2⟩ := does_addrs (colGroup s.cfg cur.addr) t1
  obtain ⟨t3, write, hA, hC, sr⟩ := does_writeWords cur.len.toNat t2 (by omega)
  have upto := cmd.append addrs
  have quiet := quiet1.trans quiet2
  rw [sentEvents_congr upto.span.cfg quiet.bufA quiet.frees] at write
  exact ⟨t3, (upto.append write).mono (by rw [colGroup_length]; omega),
    ⟨hA.trans quiet.bufA, hC.trans quiet.bufC⟩, sr.trans quiet.lastSr⟩

/-- Settles O34: a run of cycles in session RPROG, which it leaves alone. -/
theorem rprogInput : Obligations.RprogInput := by
  intro s l hwf hs hlen
  have hc := checkRequest_lenOperand (op := 0x22) hs l rfl rfl hlen (by decide)
  obtain ⟨t, run, hbuf, sr⟩ := does_rprogInput (latchRequest 0x22 l s) (startOp 0x22 l seqRprogInput s)
    (latchRequest_len_le 0x22 l hwf hlen)
  rw [latchRequest_len] at run
  have hsession : t.st.session = .rprog := by rw [run.span.st]; exact hs.session
  have hended := request_doneAs hs hc (List.append_nil _).symm run (by omega) (piece_noSession hsession) hbuf
  rw [sr] at hended
  exact ⟨_, rfl, request_seqFrame_of_fits false true hs rfl rfl (by simp [seqRprogInput]), hended⟩

/-- Settles O35: the session is closed between the wait and its timeout line, so after either outcome. -/
theorem rprogEnd : Obligations.RprogEnd := by
  intro s l _ hs
  have hc := checkRequest_noOperands (op := 0x23) hs l rfl rfl rfl (by decide)
  obtain ⟨t, confirm, quiet⟩ := does_cmd 0x10 (startOp 0x23 l seqRprogEnd s)
  refine ⟨_, rfl, request_seqFrame_of_fits true false hs rfl rfl (by simp [seqRprogEnd]), ?_⟩
  exact request_wait (mid := [.act (.setSession .none)]) hs hc (List.append_assoc _ _ _) confirm (by omega)
    quiet.bufA quiet.bufC (fun _ => quiet.lastSr) (fun u _ => piece_setSession .none u)

/-! ### CACHE_PROGRAM (R214) -/

/-- Settles O36: as PAGE_PROGRAM, with the confirm byte that L chooses and no status check. -/
theorem cacheProgram : Obligations.CacheProgram := by
  intro s l hwf hs hlen
  have hc := checkRequest_lenOperand (op := 0x24) hs l rfl rfl hlen (by decide)
  refine ⟨_, rfl, request_seqFrame_of_fits true true hs rfl rfl (by simp [seqCacheProgram]),
    fun hbusy => ?_, fun hready => ?_⟩
  · exact request_busy hs hbusy hc (by simp only [seqCacheProgram, List.append_assoc]; rfl)
  · obtain ⟨t, program, hbuf, sr⟩ := does_checkedProgram (s := startOp 0x24 l seqCacheProgram s) hready
      (latchRequest 0x24 l s) s.regs.addr (if l then 0x10 else 0x15) (latchRequest_len_le 0x24 l hwf hlen)
    rw [latchRequest_len] at program
    exact request_wait (mid := []) hs hc (List.append_assoc _ _ _) program (by omega) hbuf.1 hbuf.2
      (fun hpin => sr.trans (lastSrAt_rbPin hpin 0)) (fun _ => piece_noSession)

/-! ### BLOCK_ERASE (R215) -/

/-- Settles O37: as PAGE_PROGRAM, with the row group between two command bytes in the place of the data load. -/
theorem blockErase : Obligations.BlockErase := by
  intro s l _ hs
  have hc := checkRequest_noOperands (op := 0x30) hs l rfl rfl rfl (by decide)
  refine ⟨_, rfl, request_seqFrame_of_fits true false hs rfl rfl (by simp [seqBlockErase]),
    fun hbusy => ?_, fun hready => ?_⟩
  · exact request_busy hs hbusy hc (by simp only [seqBlockErase, List.append_assoc]; rfl)
  · obtain ⟨t, command, still, sr⟩ := does_commandAddrs (s := startOp 0x30 l seqBlockErase s) hready 0x60
      (rowGroup s.cfg s.regs.addr)
    obtain ⟨u, confirm, quiet⟩ := does_cmd 0xD0 t
    have hrow := rowGroup_length s.cfg s.regs.addr
    refine request_waitStatus_same hs hc ?_ (command.append confirm) (by omega)
      ⟨quiet.bufA.trans still.bufA, quiet.bufC.trans still.bufC⟩
      fun hpin => quiet.lastSr.trans (sr.trans (lastSrAt_rbPin hpin 0))
    simp only [seqBlockErase, seqWaitStatus, List.append_assoc]
    rfl

end Sys2Proof.Machine

/-! The two-plane operations (R241 to R245): TP_PROG_P1, TP_PROG_P2, TP_CACHE_P2, TP_ERASE_P1 and TP_ERASE_P2. -/

namespace Sys2Proof.Machine

/-! ### Ends shared by these operations -/

/-- An operation that is a run of cycles kk and then a ready wait, after which it closes the session whatever the
outcome, and a status check (R242, R245). -/
theorem request_waitStatus_closes {s t : State} {op : Byte} {l : Bool} {body : Config → Cur → List Micro}
    {kk : List Micro} {x : Session} {es : List Event} {b N : Nat} {timeout failed : Result} (hs : Startable s x)
    (hc : checkRequest s.cfg s.st.session (latchRequest op l s) = none)
    (hq : body s.cfg (latchRequest op l s) = kk ++ (seqWaitReady s.cfg
      ++ ([.act (.setSession .none)] ++ ([.raiseUnlessReady timeout] ++ seqStatusCheck failed))))
    (hk : Does N kk (startOp op l body s) t es b) (hN : N ≤ 131200) (hbuf : BuffersKept s t)
    (hsr : t.st.lastSr = s.st.lastSr) :
    WaitStatusEnds s (request op l body s) op l timeout failed .none es b := by
  have hsession : t.st.session = x := by rw [hk.span.st]; exact hs.session
  have hspan : Span (startOp op l body s) (setSession x t) es b := by
    rw [setSession_same hsession]
    exact hk.span
  exact request_waitStatus hs hc hq hk.piece hN hsession hspan hbuf.1 hbuf.2 (fun _ => hsr)
    (fun u _ => piece_setSession .none u)

/-- An operation that sets the session to y on its way, and but for that is a run of cycles. -/
theorem request_sessionSet {s t : State} {op : Byte} {l : Bool} {body : Config → Cur → List Micro} {x y : Session}
    {es : List Event} {b N : Nat} (hs : Startable s x)
    (hc : checkRequest s.cfg s.st.session (latchRequest op l s) = none)
    (hpiece : Piece N (body s.cfg (latchRequest op l s)) (startOp op l body s) t) (hN : N ≤ 131200)
    (hspan : Span (startOp op l body s) (setSession x t) es b) (hy : t.st.session = y) (hbuf : BuffersKept s t) :
    EndedAs s (request op l body s) op l .success y es b t.st.lastSr := by
  have hresume : t.seq.resume = none := hspan.resume.trans hs.resume
  have hset : setSession y (setSession x t) = t := setSession_same hy
  have hended := endedAs_endOp hs .success y hspan hbuf.1 hbuf.2
  rw [hset] at hended
  rw [request_runs hs hc hpiece hresume (by unfold opBudget; omega)]
  exact hended

/-! ### Cycles shared by these operations -/

theorem Quiet.buffersKept {s t : State} (h : Quiet s t) : BuffersKept s t := ⟨h.bufA, h.bufC⟩

/-- A confirm byte and the delay after it. -/
theorem does_confirmDelay (c : Byte) (d : BitVec 32) (s : State) :
    ∃ t, Does 3 (seqCmd c ++ [.act (.delay d)]) s t [.cmd c, .delay d] 0 ∧ Quiet s t := by
  obtain ⟨t, confirm, quiet⟩ := does_cmd c s
  obtain ⟨u, delay, quiet'⟩ := does_delay d t
  exact ⟨u, confirm.append delay, quiet.trans quiet'⟩

/-- The data load of a program at address a, of the length latched in cur (R149, R210). -/
theorem does_seqProgramLoad (cur : Cur) (a : Reg) (s : State) (hn : cur.len.toNat ≤ 65536) :
    ∃ t, Does 131085 (seqProgramLoad s.cfg cur a) s t (programEvents s a cur.len.toNat) 0
      ∧ BuffersKept s t ∧ t.st.lastSr = s.st.lastSr := by
  obtain ⟨t, load, hA, hC, sr⟩ := does_programLoad a cur.len.toNat s (by omega)
  rw [← List.append_assoc] at load
  exact ⟨t, load.mono (by omega), ⟨hA, hC⟩, sr⟩

/-- The data load, the session closed, and the quiet cycles kk: seen with the session as it was, one run of cycles. -/
theorem piece_loadClosing {s : State} {x : Session} {kk : List Micro} {es : List Event} {M : Nat} (cur : Cur) (a : Reg)
    (hx : s.st.session = x) (hn : cur.len.toNat ≤ 65536) (hkk : ∀ t, ∃ u, Does M kk t u es 0 ∧ Quiet t u) :
    ∃ u, Piece (131086 + M) (seqProgramLoad s.cfg cur a ++ [.act (.setSession .none)] ++ kk) s u
      ∧ Span s (setSession x u) (programEvents s a cur.len.toNat ++ es) 0 ∧ u.st.session = .none
      ∧ BuffersKept s u ∧ u.st.lastSr = s.st.lastSr := by
  obtain ⟨t, load, hbuf, sr⟩ := does_seqProgramLoad cur a s hn
  obtain ⟨u, run, quiet⟩ := hkk (setSession .none t)
  have hspan := span_setSession load.span run.span
  rw [hx] at hspan
  exact ⟨u, (load.piece.append (piece_setSession .none t)).append run.piece, hspan, by rw [run.span.st]; rfl,
    hbuf.trans quiet.buffersKept, quiet.lastSr.trans sr⟩

/-! ### TP_PROG_P1 and TP_PROG_P2 (R241, R242) -/

/-- Settles O38: a device that shows busy ends the operation at the busy check; from one that shows ready the delay
follows the data load and its confirm byte, and then the session is set. -/
theorem tpProgP1 : Obligations.TpProgP1 := by
  intro s l hwf hs hlen
  have hc := checkRequest_lenOperand (op := 0x40) hs l rfl rfl hlen (by decide)
  refine ⟨_, rfl, request_seqFrame_of_fits true true hs rfl rfl (by simp [seqTpProgP1]),
    fun hbusy => ?_, fun hready => ?_⟩
  · exact request_busy hs hbusy hc (by simp only [seqTpProgP1, List.append_assoc]; rfl)
  · obtain ⟨t, load, hbuf, sr⟩ := does_checkedProgramLoad (s := startOp 0x40 l seqTpProgP1 s) hready
      (latchRequest 0x40 l s) (paddr s.cfg s.regs.addr false) (latchRequest_len_le 0x40 l hwf hlen)
    obtain ⟨u, confirm, quiet⟩ := does_confirmDelay 0x11 s.cfg.tDbsy t
    rw [latchRequest_len] at load
    have hended := request_doneAs (mid := [.act (.setSession .plane1Prog)]) hs hc
      (by simp only [seqTpProgP1, List.append_assoc]; rfl) (load.append confirm) (by omega)
      (piece_setSession .plane1Prog u) (hbuf.trans quiet.buffersKept)
    rw [quiet.lastSr.trans sr] at hended
    exact hended

/-- Settles O39: the data load at the plane-1 address and its confirm byte, with no busy check before them; the
session is closed between the wait and its timeout line, so after any outcome. -/
theorem tpProgP2 : Obligations.TpProgP2 := by
  intro s l hwf hs hlen
  have hc := checkRequest_lenOperand (op := 0x41) hs l rfl rfl hlen (by decide)
  refine ⟨_, rfl, request_seqFrame_of_fits true true hs rfl rfl (by simp [seqTpProgP2]), ?_⟩
  obtain ⟨t, load, hbuf, sr⟩ := does_seqProgramLoad (latchRequest 0x41 l s) (paddr s.cfg s.regs.addr true)
    (startOp 0x41 l seqTpProgP2 s) (latchRequest_len_le 0x41 l hwf hlen)
  obtain ⟨u, confirm, quiet⟩ := does_cmd 0x10 t
  rw [latchRequest_len] at load
  refine request_waitStatus_closes hs hc ?_ (load.append confirm) (by omega) (hbuf.trans quiet.buffersKept)
    (quiet.lastSr.trans sr)
  simp only [seqTpProgP2, List.append_assoc]
  rfl

/-! ### TP_CACHE_P2 (R243) -/

theorem seqTpCacheP2_fits (c : Config) (cur : Cur) : (seqTpCacheP2 c cur).all (microFits true true) = true := by
  cases h : cur.l <;> simp [seqTpCacheP2, h]

/-- Settles O40: the session is closed right after the data load; then L chooses between a confirm byte with a delay,
and one with a ready wait and a status check. -/
theorem tpCacheP2 : Obligations.TpCacheP2 := by
  intro s l hwf hs hlen es
  have hc := checkRequest_lenOperand (op := 0x42) hs l rfl rfl hlen (by decide)
  have hloaded {kk : List Micro} {fs : List Event} {M : Nat} :=
    piece_loadClosing (s := startOp 0x42 l seqTpCacheP2 s) (kk := kk) (es := fs) (M := M) (latchRequest 0x42 l s)
      (paddr s.cfg s.regs.addr true) hs.session (latchRequest_len_le 0x42 l hwf hlen)
  rw [latchRequest_len] at hloaded
  refine ⟨_, rfl, request_seqFrame_of_fits true true hs rfl rfl (seqTpCacheP2_fits _ _), ?_, ?_⟩
  · rintro rfl
    obtain ⟨u, hpiece, hspan, hclosed, hbuf, sr⟩ := hloaded (does_confirmDelay 0x15 s.cfg.tCbsy)
    have hended := request_sessionSet hs hc hpiece (by omega) hspan hclosed hbuf
    rw [sr] at hended
    exact hended
  · rintro rfl
    obtain ⟨u, hpiece, hspan, hclosed, hbuf, sr⟩ := hloaded (does_cmd 0x10)
    refine request_waitStatus (mid := []) hs hc ?_ hpiece (by omega) hclosed hspan hbuf.1 hbuf.2 (fun _ => sr)
      (fun _ => piece_noSession)
    simp only [seqTpCacheP2, List.append_assoc]
    rfl

/-! ### TP_ERASE_P1 and TP_ERASE_P2 (R244, R245) -/

/-- Settles O41: as TP_PROG_P1, with the row group between two command bytes in the place of the data load. -/
theorem tpEraseP1 : Obligations.TpEraseP1 := by
  intro s l _ hs
  have hc := checkRequest_noOperands (op := 0x48) hs l rfl rfl rfl (by decide)
  refine ⟨_, rfl, request_seqFrame_of_fits true false hs rfl rfl (by simp [seqTpEraseP1]),
    fun hbusy => ?_, fun hready => ?_⟩
  · exact request_busy hs hbusy hc (by simp only [seqTpEraseP1, List.append_assoc]; rfl)
  · obtain ⟨t, command, still, sr⟩ := does_commandAddrs (s := startOp 0x48 l seqTpEraseP1 s) hready 0x60
      (rowGroup s.cfg (paddr s.cfg s.regs.addr false))
    obtain ⟨u, confirm, quiet⟩ := does_confirmDelay 0xD1 s.cfg.tDbsy t
    have hrow := rowGroup_length s.cfg (paddr s.cfg s.regs.addr false)
    have hended := request_doneAs (mid := [.act (.setSession .plane1Erase)]) hs hc
      (by simp only [seqTpEraseP1, List.append_assoc]; rfl) (command.append confirm) (by omega)
      (piece_setSession .plane1Erase u) (BuffersKept.trans ⟨still.bufA, still.bufC⟩ quiet.buffersKept)
    rw [quiet.lastSr.trans sr] at hended
    exact hended

/-- Settles O42: as TP_PROG_P2, with the row group between two command bytes in the place of the data load. -/
theorem tpEraseP2 : Obligations.TpEraseP2 := by
  intro s l _ hs
  have hc := checkRequest_noOperands (op := 0x49) hs l rfl rfl rfl (by decide)
  refine ⟨_, rfl, request_seqFrame_of_fits true false hs rfl rfl (by simp [seqTpEraseP2]), ?_⟩
  obtain ⟨t1, command, quiet1⟩ := does_cmd 0x60 (startOp 0x49 l seqTpEraseP2 s)
  obtain ⟨t2, addrs, quiet2⟩ := does_addrs (rowGroup s.cfg (paddr s.cfg s.regs.addr true)) t1
  obtain ⟨t3, confirm, quiet3⟩ := does_cmd 0xD0 t2
  have quiet := (quiet1.trans quiet2).trans quiet3
  have hrow := rowGroup_length s.cfg (paddr s.cfg s.regs.addr true)
  refine request_waitStatus_closes hs hc ?_ ((command.append addrs).append confirm) (by omega) quiet.buffersKept
    quiet.lastSr
  simp only [seqTpEraseP2, List.append_assoc]
  rfl

end Sys2Proof.Machine

/-! The addresses of page and block units (R265), and the retry controller's own moves: the loop head, the holds of Fill
and Drain, a failed attempt, the end of a unit, Advance and the end of a run (R263, R268, R270 to R276). -/

namespace Sys2Proof.Machine

/-! ### Unit addresses (R265) -/

theorem toNat_pageUnitAddr (c : Config) (u : Reg) :
    (pageUnitAddr c u).toNat = u.toNat * 2 ^ c.rowShift % 2 ^ 32 := by
  rw [pageUnitAddr, BitVec.toNat_shiftLeft, Nat.shiftLeft_eq]

/-- The page unit that is the first page of block b. -/
def firstPage (c : Config) (b : Reg) : Reg := b * BitVec.ofNat 32 c.pagesPerBlock

theorem toNat_firstPage (c : Config) (b : Reg) : (firstPage c b).toNat = b.toNat * c.pagesPerBlock % 2 ^ 32 := by
  rw [firstPage, BitVec.toNat_mul, BitVec.toNat_ofNat, Nat.mul_mod_mod]

theorem blockUnitAddr_eq_pageUnitAddr (c : Config) (b : Reg) :
    blockUnitAddr c b = pageUnitAddr c (firstPage c b) := rfl

/-- The bits below ROW_SHIFT of a page unit's address are 0. -/
theorem col_pageUnitAddr {c : Config} (hshift : c.rowShift ≤ 16) (u : Reg) : col c (pageUnitAddr c u) = 0 := by
  have hdvd : 2 ^ c.rowShift ∣ 2 ^ 32 := Nat.pow_dvd_pow 2 (by omega)
  apply BitVec.eq_of_toNat_eq
  rw [toNat_col hshift, toNat_pageUnitAddr, Nat.mod_mod_of_dvd _ hdvd, Nat.mul_mod_left]
  rfl

theorem toNat_row_pageUnitAddr {c : Config} (hshift : c.rowShift ≤ 16) (u : Reg) :
    (row c (pageUnitAddr c u)).toNat = u.toNat % 2 ^ (32 - c.rowShift) := by
  have hsplit : 2 ^ 32 = 2 ^ (32 - c.rowShift) * 2 ^ c.rowShift := by
    rw [← Nat.pow_add, Nat.sub_add_cancel (by omega)]
  rw [toNat_row, toNat_pageUnitAddr, hsplit, Nat.mul_mod_mul_right, Nat.mul_div_cancel _ (Nat.two_pow_pos _)]

/-- Settles O22: the shift is a product with 2^ROW_SHIFT, and a block unit is the page unit of its first page. -/
theorem unitAddresses : Obligations.UnitAddresses := by
  intro c u hwf
  obtain ⟨hshift, -⟩ := wf_rowShift_rowCycles hwf
  have hdvd : 2 ^ (32 - c.rowShift) ∣ 2 ^ 32 := Nat.pow_dvd_pow 2 (by omega)
  refine ⟨toNat_pageUnitAddr c u, ?_, col_pageUnitAddr hshift u, toNat_row_pageUnitAddr hshift u, ?_, ?_⟩
  · rw [blockUnitAddr_eq_pageUnitAddr, toNat_pageUnitAddr, toNat_firstPage, Nat.mod_mul_mod]
  · exact col_pageUnitAddr hshift _
  · rw [blockUnitAddr_eq_pageUnitAddr, toNat_row_pageUnitAddr hshift, toNat_firstPage, Nat.mod_mod_of_dvd _ hdvd]

/-! ### Advance (R271) -/

theorem tick_bulk {s : State} {p : RetryPt} (hpc : s.seq.pc = .bulk p) : tick s = retryStep p s := by
  rw [tick, hpc]

/-- A percentage fits PROGRESS (R276). -/
theorem toNat_progressOf {done count : Reg} (h : done.toNat ≤ count.toNat) :
    (progressOf done count).toNat = done.toNat * 100 / count.toNat := by
  have hle : done.toNat * 100 / count.toNat ≤ 100 := Nat.div_le_of_le_mul (Nat.mul_le_mul_right 100 h)
  rw [progressOf, BitVec.toNat_ofNat, Nat.mod_eq_of_lt (by omega)]

/-- While a unit is under way, one more unit may be counted. -/
theorem CountWf.toNat_done_succ_le {s : State} (h : CountWf s) (hopen : unitOpen s = true) :
    (s.bulk.unitsDone + 1).toNat ≤ s.bulk.count.toNat := by
  obtain ⟨hsum, hunit, -⟩ := h
  have hleft : s.bulk.left.toNat ≠ 0 := fun e => hunit hopen (BitVec.eq_of_toNat_eq e)
  have hlt := s.bulk.count.isLt
  have hdone : (s.bulk.unitsDone + 1).toNat = s.bulk.unitsDone.toNat + 1 := BitVec.toNat_add_of_lt (by simp; omega)
  omega

/-- Settles O55: the percentage fits its eight bits, since a unit is still left where the run advances. -/
theorem advanceUnit_spec : Obligations.AdvanceUnit := by
  intro s hpc hcount t
  have hopen : unitOpen s = true := by simp [unitOpen, hpc, inUnit]
  have ht : t = advanceUnit s := tick_bulk hpc
  rw [ht]
  exact ⟨rfl, toNat_progressOf (hcount.toNat_done_succ_le hopen), rfl⟩

/-! ### The loop head, the holds and the end of a run (R263, R272 to R275) -/

theorem loopHead_abort {s : State} (hl : s.bulk.left ≠ 0) (ha : s.bulk.abortReq = true) : loopHead s = abortRun s := by
  rw [loopHead, if_neg hl, if_pos ha]

theorem holdEnd_acknowledged {s : State} (hr : s.bulk.streamReq = false) (next : State → State) :
    holdEnd next s = next s := by
  rw [holdEnd, hr, if_neg Bool.false_ne_true]

theorem holdEnd_aborted {s : State} (hr : s.bulk.streamReq = true) (next : State → State) :
    holdEnd next s = abortRun { s with bulk := { s.bulk with streamReq := false } } := if_pos hr

/-- Either hold ends through `holdEnd`. -/
theorem tick_hold {s : State} (hpc : s.seq.pc = .bulk .fillHold ∨ s.seq.pc = .bulk .drainHold) :
    ∃ next, tick s = holdEnd next s := by
  rcases hpc with hpc | hpc
  · exact ⟨_, tick_bulk hpc⟩
  · exact ⟨_, tick_bulk hpc⟩

theorem moves_of_holding {s : State} (hpc : s.seq.pc = .bulk .fillHold ∨ s.seq.pc = .bulk .drainHold)
    (h : holding s = true) : moves s = false := by
  rcases hpc with hpc | hpc <;> simp [moves, hpc, h]

/-- Settles O56: one equation per case of the loop head, of a hold and of finish. -/
theorem streamHolds : Obligations.StreamHolds := by
  refine ⟨fun s hpc => ?_, fun s hpc => ⟨fun hr ha n => ?_, fun hr hfill => ?_, fun hr hdrain => ?_, fun hr _ => ?_⟩,
    fun s hpc hres => ?_⟩
  · have ht : tick s = loopHead s := tick_bulk hpc
    rw [ht]
    refine ⟨loopHead_done, loopHead_abort, loopHead_fill, fun hl ha hm => loopHead_attempt hl ha ?_⟩
    rcases hm with hm | hm <;> simp [hm]
  · exact drive_still (moves_of_holding hpc (by simp [holding, hr, ha])) n
  · exact (tick_bulk hfill).trans (holdEnd_acknowledged hr _)
  · exact (tick_bulk hdrain).trans (holdEnd_acknowledged hr _)
  · obtain ⟨next, ht⟩ := tick_hold hpc
    exact ht.trans (holdEnd_aborted hr next)
  · exact (tick_bulk hpc).trans (runEnd_eq hres)

/-! ### A failed attempt (R263, R270) -/

theorem toNat_satInc (v : Reg) : (satInc v).toNat = min (v.toNat + 1) (2 ^ 32 - 1) := by
  have hlt := v.isLt
  unfold satInc
  split
  · rename_i h
    subst h
    decide
  · rename_i h
    have hne : v.toNat ≠ 2 ^ 32 - 1 := fun e => h (BitVec.eq_of_toNat_eq e)
    rw [BitVec.toNat_add_of_lt (by simp; omega)]
    simp
    omega

@[simp] theorem unitOverBulk_fails (b : Bulk) : (unitOverBulk b).fails = b.fails := by
  unfold unitOverBulk
  split <;> rfl

@[simp] theorem unitOverBulk_badCount (b : Bulk) : (unitOverBulk b).badCount = b.badCount := by
  unfold unitOverBulk
  split <;> rfl

theorem unitOver_eq (s : State) :
    unitOver s = setPc (.bulk (afterUnit s)) { s with bulk := unitOverBulk s.bulk } := by
  unfold unitOver afterUnit unitOverBulk
  split <;> rfl

/-- The operation of an attempt has been judged: r stands in LAST_RESULT, and f free values have been taken. -/
def judged (r : Result) (f : Nat) (s : State) : State :=
  { s with bulk := { s.bulk with lastResult := r }, env := { s.env with frees := f } }

theorem moved_setPc_bulk (s : State) (p : RetryPt) (b : Bulk) (f : Nat) :
    Moved s (setPc (.bulk p) { s with bulk := b, env := { s.env with frees := f } }) p :=
  ⟨rfl, rfl, rfl, rfl, rfl, rfl, rfl, rfl, rfl⟩

/-- An attempt that passed: the unit is over. -/
theorem unitOver_judged (f : Nat) (s : State) : let u := judged s.bulk.lastResult f s
    Moved s (unitOver u) (afterUnit s) ∧ (unitOver u).bulk = unitOverBulk s.bulk := by
  intro u
  rw [unitOver_eq]
  exact ⟨moved_setPc_bulk _ _ _ _, rfl⟩

theorem attemptFails_judged {s : State} (hwf : s.cfg.wf = true) (hle : s.bulk.fails.toNat ≤ s.cfg.retryMax)
    (r : Result) (f : Nat) : AttemptFails s (attemptFailed (judged r f s)) r := by
  obtain ⟨-, -, -, hmax, -⟩ := wf_bounds hwf
  have hfails : (s.bulk.fails + 1).toNat = s.bulk.fails.toNat + 1 := BitVec.toNat_add_of_lt (by simp; omega)
  obtain ⟨e, hlow⟩ | ⟨e, hhigh⟩ := attemptFailed_cases (judged r f s)
  · have hlt : (s.bulk.fails + 1).toNat ≤ s.cfg.retryMax := hlow
    rw [e]
    exact ⟨hfails, fun _ => ⟨moved_setPc_bulk _ _ _ _, rfl⟩, fun h => by omega⟩
  · have hgt : s.cfg.retryMax < (s.bulk.fails + 1).toNat := hhigh
    rw [e, unitOver_eq]
    refine ⟨?_, fun h => by omega, fun _ => ⟨moved_setPc_bulk _ _ _ _, ?_, ?_⟩⟩
    · rw [setPc_bulk, unitOverBulk_fails]
      exact hfails
    · rw [setPc_bulk, unitOverBulk_badCount]
      exact toNat_satInc s.bulk.badCount
    · simp only [setPc_bulk, unitOverBulk_fails, unitOverBulk_badCount]
      rfl

theorem executedCheck_failed {s : State} (h : s.bulk.lastResult ≠ .success) : executedCheck s = attemptFailed s :=
  if_neg h

theorem verifiedCheck_failed {s : State} (h : s.bulk.lastResult ≠ .success) : verifiedCheck s = attemptFailed s :=
  if_neg h

/-- Settles O53: either judgement is a failed attempt, with LAST_RESULT as it stands. -/
theorem failedAttempt : Obligations.FailedAttempt := by
  intro s hwf hpc hr hle
  have ht : tick s = attemptFailed s := by
    rcases hpc with hpc | hpc
    · exact (tick_bulk hpc).trans (executedCheck_failed hr)
    · exact (tick_bulk hpc).trans (verifiedCheck_failed hr)
  rw [ht]
  exact attemptFails_judged hwf hle s.bulk.lastResult s.env.frees

/-! ### Validation (R264) -/

/-- A validation that did not find the captured identity (R264, R45). -/
theorem validateCheck_failed {s : State} (h : ¬ (s.bulk.lastResult = .success ∧ idIsCaptured s = true)) :
    let u := { s with bulk := { s.bulk with idRetries := satInc s.bulk.idRetries } }
    validateCheck s = if s.bulk.abortReq then abortRun u else goTo .validate u := by
  unfold validateCheck
  rw [if_neg (by simpa using h)]

/-- Settles O52: Validate is an issued READ_ID, and the comparison is byte by byte. -/
theorem idMismatch : Obligations.IdMismatch := by
  refine ⟨fun s hwf hpc hx => ?_, fun s hpc => ?_⟩
  · have hissue := issues_validate hpc hx
    obtain ⟨-, hn, -⟩ := wf_bounds hwf
    cases hready : readyAt s 0 with
    | false =>
      obtain ⟨t, hrun, hids, hA, hC⟩ := hissue.busy (by simp only [seqReadId, List.append_assoc]; rfl) hready
      obtain ⟨n, -, hreach⟩ := hrun.reach
      exact ⟨n, t, hreach 0, hA, hC, hrun.phase, fun _ => hrun.issued_same hids, nofun⟩
    | true =>
      obtain ⟨t, hrun, ⟨hA, hC⟩, hid⟩ := hissue.readId hready hn
      obtain ⟨n, -, hreach⟩ := hrun.reach
      exact ⟨n, t, hreach 0, hA, hC, hrun.phase, nofun, fun _ => ⟨hrun.issued, hid⟩⟩
  · intro stored captured t
    have ht : t = validateCheck s := tick_bulk hpc
    have hmatch : idIsCaptured s = true ↔ ∀ i < s.cfg.idBytes, stored i = captured i := idMatches_iff _ _ _ _
    refine ⟨fun ⟨hr, hid⟩ => ht.trans (validateCheck_captured hr (hmatch.2 hid)), fun h => ?_⟩
    have hfail : ¬ (s.bulk.lastResult = .success ∧ idIsCaptured s = true) := by
      rintro ⟨hr, hid⟩
      rcases h with h | ⟨i, hi, hne⟩
      · exact h hr
      · exact hne (hmatch.1 hid i hi)
    rw [ht, validateCheck_failed hfail]
    cases s.bulk.abortReq with
    | false => exact ⟨toNat_satInc _, fun _ => ⟨moved_setPc_bulk _ _ _ _, rfl⟩, nofun⟩
    | true => exact ⟨toNat_satInc _, nofun, fun _ => ⟨moved_setPc_bulk _ _ _ _, rfl⟩⟩

end Sys2Proof.Machine

/-! Read units (R266 to R269, R273, R277): the page read the retry controller issues into buffer A or C, the verify and
its comparison, a capture that fails (R262, R309), and the first unit of a BULK_READ. -/

namespace Sys2Proof.Machine

/-! ### The page read the retry controller issues (R190, R266) -/

/-- The buffer `before` has become `after` by a read of n words, the first being answer b, into its words 0 .. n-1. -/
def WordsRead (s : State) (b n : Nat) (before after : List (Nat × Word)) : Prop :=
  (∀ i < n, cellGet i after = some (answer s (b + i))) ∧ ∀ i, n ≤ i → cellGet i after = cellGet i before

/-- The same read, seen from a state m answers before. -/
theorem WordsRead.shift {s t : State} {m b n : Nat} {before after : List (Nat × Word)}
    (h : WordsRead t b n before after) (hans : ∀ i, answer t i = answer s (m + i)) :
    WordsRead s (m + b) n before after := by
  obtain ⟨hin, hout⟩ := h
  exact ⟨fun i hi => by rw [hin i hi, hans, Nat.add_assoc], hout⟩

/-- The request of a page read of the record at a (R266). -/
def recordCur (s : State) (a : Reg) : Cur := issuedCur s 0x10 a s.cfg.recWords

theorem recordCur_len {s : State} (hwf : s.cfg.wf = true) (a : Reg) : (recordCur s a).len.toNat = s.cfg.recWords := by
  obtain ⟨hbuf, -, -, -, hrec⟩ := wf_bounds hwf
  exact Nat.mod_eq_of_lt (by omega)

theorem checkRequest_record {s : State} (hwf : s.cfg.wf = true) (hx : s.st.session = .none) (a : Reg) :
    checkRequest s.cfg s.st.session (recordCur s a) = none := by
  obtain ⟨-, -, -, -, hrec⟩ := wf_bounds hwf
  rw [hx]
  exact checkRequest_pass rfl rfl (fun _ => by rw [recordCur_len hwf]; exact hrec) (by simp [recordCur, issuedCur])

/-- The cycles of a page read of the record at a, the busy check being answered by answer b (R190). -/
def recordEvents (s : State) (a : Reg) (b : Nat) : List Event :=
  sampleEvents s b ++ pageSetupEvents s.cfg a ++ readEvents s (b + 1) s.cfg.recWords

theorem recordEvents_after {s t : State} {es : List Event} {m : Nat} (h : Span s t es m) (a : Reg) (b : Nat) :
    recordEvents t a b = recordEvents s a (m + b) := by
  simp [recordEvents, sampleEvents_after h, readEvents_after h, h.cfg, Nat.add_assoc]

/-- An issued page read of a device that shows ready: after the setup, in u, the micro-operations kk read the record
into one of the buffers, as P says. -/
theorem Issues.record {s : State} {a : Reg} {body : Config → Cur → List Micro} {p : RetryPt} {x : Phase}
    {kk : List Micro} {N : Nat} {P : State → State → Prop} (h : Issues s (recordCur s a) body p x)
    (hready : readyAt s 0 = true)
    (hq : body s.cfg (recordCur s a) = seqBusyCheck s.cfg ++ seqPageSetup s.cfg (recordCur s a) ++ kk)
    (hread : ∀ u : State, u.cfg = s.cfg → ∃ t, Does N kk u t (readEvents u 0 s.cfg.recWords) s.cfg.recWords
      ∧ P u t ∧ t.st.lastSr = u.st.lastSr) :
    ∃ u t, IssueRun (N + 23) s (endOp .success t) p x .success (recordEvents s a 0) (1 + s.cfg.recWords) (lastSrAt s 0)
      ∧ (endOp .success t).ids = s.ids ∧ BuffersKept s u ∧ (∀ i, answer u i = answer s (1 + i)) ∧ P u t := by
  obtain ⟨u, setup, still, sr⟩ :=
    does_checkedPageSetup (s := latched (recordCur s a) p (setPhase x s)) hready (recordCur s a)
  obtain ⟨t, read, hP, sr'⟩ := hread u setup.span.cfg
  have hev : readEvents u 0 s.cfg.recWords = readEvents s 1 s.cfg.recWords := readEvents_after setup.span 0 _
  have hans : ∀ i, answer u i = answer s (1 + i) := fun i => answer_after setup.span i
  have run : Does (20 + N) (body s.cfg (recordCur s a)) (latched (recordCur s a) p (setPhase x s)) t
      (recordEvents s a 0) (1 + s.cfg.recWords) := by
    rw [hq, recordEvents, ← hev]
    exact setup.append read
  obtain ⟨⟨⟨n, hn, hreach⟩, hissued, hphase⟩, hids⟩ := h.run_span run.piece.ends run.span
  rw [sr'.trans sr] at hissued
  exact ⟨u, t, ⟨⟨n, by omega, hreach⟩, hissued, hphase⟩, hids, ⟨still.bufA, still.bufC⟩, hans, hP⟩

/-- An issued PAGE_READ of a device that shows ready (R190). -/
theorem Issues.pageRead {s : State} {a : Reg} {p : RetryPt} {x : Phase} (hwf : s.cfg.wf = true)
    (h : Issues s (recordCur s a) seqPageRead p x) (hready : readyAt s 0 = true) : let n := s.cfg.recWords
    ∃ t, IssueRun (2 * n + 24) s t p x .success (recordEvents s a 0) (1 + n) (lastSrAt s 0) ∧ t.ids = s.ids
      ∧ WordsRead s 1 n s.bufA t.bufA ∧ t.bufC = s.bufC := by
  intro n
  obtain ⟨hbuf, -, -, -, hrec⟩ := wf_bounds hwf
  obtain ⟨u, t, hrun, hids, ⟨hA, hC⟩, hans, hwords, hkept⟩ := h.record
    (P := fun u t => WordsRead u 0 n u.bufA t.bufA ∧ t.bufC = u.bufC) hready
    (by rw [seqPageRead, recordCur_len hwf]) fun u hcfg => by
      obtain ⟨t, read, hin, hout, hC, -, sr⟩ := does_readWords n u (by rw [hcfg]; exact hrec) (by rw [hcfg]; exact hbuf)
      exact ⟨t, read, ⟨⟨by simpa using hin, hout⟩, hC⟩, sr⟩
  refine ⟨_, hrun, hids, ?_, (endOp_bufC _ t).trans (hkept.trans hC)⟩
  rw [endOp_bufA, ← hA]
  exact hwords.shift hans

/-- An issued PAGE_READ into compare buffer C of a device that shows ready (R266). -/
theorem Issues.pageReadC {s : State} {a : Reg} {p : RetryPt} {x : Phase} (hwf : s.cfg.wf = true)
    (h : Issues s (recordCur s a) seqPageReadC p x) (hready : readyAt s 0 = true) : let n := s.cfg.recWords
    ∃ t, IssueRun (2 * n + 24) s t p x .success (recordEvents s a 0) (1 + n) (lastSrAt s 0) ∧ t.ids = s.ids
      ∧ WordsRead s 1 n s.bufC t.bufC ∧ t.bufA = s.bufA := by
  intro n
  obtain ⟨hbuf, -, -, -, hrec⟩ := wf_bounds hwf
  obtain ⟨u, t, hrun, hids, ⟨hA, hC⟩, hans, hwords, hkept⟩ := h.record
    (P := fun u t => WordsRead u 0 n u.bufC t.bufC ∧ t.bufA = u.bufA) hready
    (by rw [seqPageReadC, recordCur_len hwf]) fun u hcfg => by
      obtain ⟨t, read, hin, hout, hA, -, sr⟩ := does_readWordsC n u (by rw [hcfg]; exact hrec) (by rw [hcfg]; exact hbuf)
      exact ⟨t, read, ⟨⟨by simpa using hin, hout⟩, hA⟩, sr⟩
  refine ⟨_, hrun, hids, ?_, (endOp_bufA _ t).trans (hkept.trans hA)⟩
  rw [endOp_bufC, ← hC]
  exact hwords.shift hans

/-! ### The verify and its comparison (R267 to R269) -/

theorem anyBelow_iff (f : Nat → Bool) (n : Nat) : anyBelow f n = true ↔ ∃ i < n, f i = true := by
  induction n with
  | zero => simp [anyBelow]
  | succ n ih => rw [anyBelow, Bool.or_eq_true, ih, Nat.exists_lt_succ_right]

theorem buffersDiffer_iff (s : State) (n : Nat) : buffersDiffer s n = true ↔ ∃ i < n, memRead s i ≠ cRead s i := by
  simp [buffersDiffer, anyBelow_iff]

theorem buffersDiffer_eq_false_iff (s : State) (n : Nat) :
    buffersDiffer s n = false ↔ ∀ i < n, memRead s i = cRead s i := by
  rw [← Bool.not_eq_true, buffersDiffer_iff]
  simp

theorem verifiedCheck_differs {s : State} (hr : s.bulk.lastResult = .success)
    (hd : buffersDiffer s s.cfg.recWords = true) :
    verifiedCheck s = attemptFailed (judged .invalidData (s.env.frees + 1) s) := by
  rw [verifiedCheck, if_pos hr, if_pos hd]
  rfl

theorem verifiedCheck_agrees {s : State} (hr : s.bulk.lastResult = .success)
    (hd : buffersDiffer s s.cfg.recWords = false) : verifiedCheck s = unitOver (takeFree s) := by
  rw [verifiedCheck, if_pos hr, hd, if_neg Bool.false_ne_true]

/-- With no verify to make, the unit is over (R267). -/
theorem executedCheck_over {s : State} (hr : s.bulk.lastResult = .success) (hm : s.bulk.mode ≠ .none)
    (hv : verifyApplies s = false) : executedCheck s = unitOver s := by
  unfold verifyApplies at hv
  rw [executedCheck, if_pos hr]
  cases h : s.bulk.mode with
  | none => exact absurd h hm
  | erase => rfl
  | read | write => simp [h] at hv; simp [hv]

/-- The phase of a verify: VERIFY in a read run; a write run keeps its own (R268, R269, log 10). -/
def verifyPhase (b : Bulk) : Phase := if b.mode = .read then .verify else b.phase

theorem executedCheck_verify {s : State} (hr : s.bulk.lastResult = .success) (hv : verifyApplies s = true) :
    executedCheck s = issueVerify (setPhase (verifyPhase s.bulk) s) := by
  unfold verifyApplies at hv
  rw [executedCheck, if_pos hr]
  cases h : s.bulk.mode with
  | none | erase => simp [h] at hv
  | read => simp [h] at hv; simp [hv, verifyPhase, h]
  | write =>
    simp [h] at hv
    simp only [hv, if_true, verifyPhase, h]
    rfl

/-- The verify of a unit is a page read of its record (R266, R268). -/
theorem issues_verify {s : State} (hwf : s.cfg.wf = true) (hpc : s.seq.pc = .bulk .executed)
    (hr : s.bulk.lastResult = .success) (hx : s.st.session = .none) (hv : verifyApplies s = true) :
    Issues s (recordCur s (pageUnitAddr s.cfg s.bulk.unit)) seqPageReadC .verified (verifyPhase s.bulk) where
  moves := by simp [moves, hpc]
  tick := (tick_bulk hpc).trans (executedCheck_verify hr hv)
  check := checkRequest_record hwf hx _

theorem executeUnit_read {s : State} (hm : s.bulk.mode = .read) : executeUnit s =
    issueAt 0x10 (pageUnitAddr s.cfg s.bulk.unit) s.cfg.recWords seqPageRead .executed (setPhase .execute s) := by
  simp [executeUnit, setPhase, hm]

/-- Execute of a read unit is a page read of its record (R267). -/
theorem issues_read {s : State} (hwf : s.cfg.wf = true) (hpc : s.seq.pc = .bulk .execute) (hm : s.bulk.mode = .read)
    (hx : s.st.session = .none) :
    Issues s (recordCur s (pageUnitAddr s.cfg s.bulk.unit)) seqPageRead .executed .execute where
  moves := by simp [moves, hpc]
  tick := (tick_bulk hpc).trans (executeUnit_read hm)
  check := checkRequest_record hwf hx _

/-- Settles O54: with no verify the unit is over; a verify is an issued page read into C; the comparison is word by
word, and a word that differs is a failed attempt with InvalidData. -/
theorem verifyCompares : Obligations.VerifyCompares := by
  refine ⟨fun s hpc hr hm hv => ?_, fun s hwf hpc hr hx hv => ?_, fun s hwf hpc hr hle => ⟨fun hd => ?_, fun hd => ?_⟩⟩
  · have ht : tick s = unitOver s := (tick_bulk hpc).trans (executedCheck_over hr hm hv)
    rw [ht]
    exact unitOver_judged s.env.frees s
  · intro n
    have hissue := issues_verify hwf hpc hr hx hv
    cases hready : readyAt s 0 with
    | false =>
      obtain ⟨t, hrun, hids, hA, hC⟩ := hissue.busy (by simp only [seqPageReadC, List.append_assoc]; rfl) hready
      obtain ⟨k, -, hreach⟩ := hrun.reach
      exact ⟨k, t, hreach 0, hA, fun hm => hrun.phase.trans (if_pos hm),
        fun _ => ⟨hrun.issued_same hids, hC⟩, nofun⟩
    | true =>
      obtain ⟨t, hrun, hids, hwords, hA⟩ := hissue.pageReadC hwf hready
      obtain ⟨k, -, hreach⟩ := hrun.reach
      exact ⟨k, t, hreach 0, hA, fun hm => hrun.phase.trans (if_pos hm), nofun,
        fun _ => ⟨hrun.issued_same hids, hwords⟩⟩
  · have ht : tick s = _ := (tick_bulk hpc).trans (verifiedCheck_differs hr ((buffersDiffer_iff _ _).2 hd))
    rw [ht]
    exact attemptFails_judged hwf hle .invalidData _
  · have ht : tick s = _ := (tick_bulk hpc).trans (verifiedCheck_agrees hr ((buffersDiffer_eq_false_iff _ _).2 hd))
    rw [ht]
    exact unitOver_judged (s.env.frees + 1) s

/-! ### A capture that fails (R262, R309) -/

/-- The end of a run whose capture failed (R262, R309). -/
def captureFailed (s : State) : State := endOp .readIdFailed { s with bulk := { s.bulk with active := false } }

theorem captureFailed_eq {s : State} (h : s.seq.resume = none) : captureFailed s = { s with
    bulk := { s.bulk with active := false }
    pins := { busRest s.pins with ceN := true }
    st := { s.st with result := .readIdFailed, done := true, busy := false }
    seq := { s.seq with pc := .idle } } :=
  endOp_host h

theorem captureCheck_failed {s : State} (h : ¬ (s.bulk.lastResult = .success ∧ idIsExpected s = true)) :
    captureCheck s = captureFailed s := by
  rw [captureCheck, if_neg (by simpa using h)]
  rfl

/-- A bulk operation requested in s starts its run (R261). -/
theorem reach_runStart {s : State} {i : Instr} {m : BulkMode} (hs : Startable s .none) (hi : bulkModeOf i = some m) :
    ∃ body, exec i s = .next (request i.opcode i.lastFlag body s)
      ∧ Reach 2 (startOp i.opcode i.lastFlag body s) (startBulk m (startOp i.opcode i.lastFlag body s)) := by
  obtain ⟨body, hexec, hbody, hlegal, hadmit, hlen, hop⟩ := exec_bulk hi
  exact ⟨body, hexec s, reach_startBulk hbody (checkRequest_noOperands hs _ (hlegal _) hadmit hlen hop)⟩

/-- A run whose capture returned r, and not Success with the expected identity, ends there. -/
theorem run_captureFails {s t : State} {i : Instr} {m : BulkMode} {body : Config → Cur → List Micro} {r : Result}
    {es : List Event} {used : Nat} {sr : Byte} (hs : Startable s .none)
    (hstart : Reach 2 (startOp i.opcode i.lastFlag body s) (startBulk m (startOp i.opcode i.lastFlag body s)))
    (hrun : IssueRun 25 (startBulk m (startOp i.opcode i.lastFlag body s)) t .captured .capture r es used sr)
    (hfail : ¬ (r = .success ∧ idIsExpected t = true)) :
    ∃ u, request i.opcode i.lastFlag body s = u ∧ RunFrame s u i ∧ RunEnded u .readIdFailed ∧ u.st.idcap = false
      ∧ u.bulk = { runStarted s m with lastResult := r, active := false } ∧ u.st.lastSr = sr ∧ Observed s u es used
      ∧ u.ids = t.ids ∧ BuffersKept t u := by
  obtain ⟨⟨k, hk, hreach⟩, ⟨obs, cfg, regs, -, st, bulk, pc, resume, -, -, -, -, -, inputs, reads⟩, phase⟩ := hrun
  have hbulk : t.bulk = { runStarted s m with lastResult := r } := by
    rw [bulk, phase]
    rfl
  have hst : t.st = { s.st with busy := true, done := false, idcap := false, lastSr := sr } := st
  have hovr : t.st.ovr = s.st.ovr := by rw [hst]
  have hsession : t.st.session = s.st.session := by rw [hst]
  have hidcap : t.st.idcap = false := by rw [hst]
  have hsr : t.st.lastSr = sr := by rw [hst]
  have hcheck : Reach 1 t (captureCheck t) := reach_retryStep pc (by decide) (by decide)
  rw [captureCheck_failed (by rw [hbulk]; exact hfail)] at hcheck
  refine ⟨captureFailed t, request_reaches_opBudget hs ((hstart.trans hreach).trans hcheck) (moves_endOp resume)
    (by unfold opBudget; omega), ?_⟩
  rw [captureFailed_eq resume]
  exact ⟨⟨cfg, regs, hovr, hsession, inputs, reads⟩, ⟨rfl, rfl, rfl, rfl, rfl, resume, rfl, rfl, rfl, rfl, rfl⟩, hidcap,
    by simp only [hbulk], hsr, obs, rfl, rfl, rfl⟩

/-- Settles O48: the capture's READ_ID returns Busy, or stores an identity that is not the expected one. -/
theorem captureFails : Obligations.CaptureFails := by
  intro s i m hwf hs hi hfail
  obtain ⟨-, hn, -⟩ := wf_bounds hwf
  obtain ⟨body, hexec, hstart⟩ := reach_runStart hs hi
  have hissue := issues_capture (s := startBulk m (startOp i.opcode i.lastFlag body s)) rfl hs.session
  rw [hexec]
  cases hready : readyAt s 0 with
  | false =>
    obtain ⟨t, ⟨⟨k, hk, hreach⟩, issued, phase⟩, hids, hbufs⟩ :=
      hissue.busy (by simp only [seqReadId, List.append_assoc]; rfl) hready
    obtain ⟨u, hu, frame, ended, idcap, bulk, sr, obs, ids, hbufs'⟩ :=
      run_captureFails hs hstart ⟨⟨k, by omega, hreach⟩, issued, phase⟩ (by simp)
    obtain ⟨hA, hC⟩ := hbufs.trans hbufs'
    have hids' : u.ids = s.ids := ids.trans hids
    rw [hu]
    exact ⟨u, rfl, frame, ended, idcap, congrArg Bulk.badCount bulk, congrArg Bulk.badLog bulk,
      congrArg Bulk.idRetries bulk, congrArg Bulk.streamReq bulk,
      by rw [hids'], by rw [hids'], sr, fun _ => ⟨obs, by rw [bulk], hids'⟩, nofun, hA, hC⟩
  | true =>
    obtain ⟨t, hrun, hbufs, stored, capLo, capHi⟩ := hissue.readId hready hn
    obtain ⟨-, hcfg, -⟩ := hrun.issued
    have hid : ¬ IdentityOk s 1 := hfail.resolve_left (by simp [hready])
    have hother : ¬ (Result.success = .success ∧ idIsExpected t = true) := by
      rintro ⟨-, hexp⟩
      rw [idIsExpected, idMatches_iff, hcfg] at hexp
      exact hid fun i hi => (stored.byte hn hi).symm.trans (hexp i hi)
    obtain ⟨u, hu, frame, ended, idcap, bulk, sr, obs, ids, hbufs'⟩ := run_captureFails hs hstart hrun hother
    obtain ⟨hA, hC⟩ := hbufs.trans hbufs'
    rw [← ids] at stored capLo capHi
    rw [hu]
    exact ⟨u, rfl, frame, ended, idcap, congrArg Bulk.badCount bulk, congrArg Bulk.badLog bulk,
      congrArg Bulk.idRetries bulk, congrArg Bulk.streamReq bulk,
      capLo, capHi, sr, nofun, fun _ => ⟨obs, by rw [bulk], stored⟩, hA, hC⟩

/-! ### The first unit of a BULK_READ (R277) -/

/-- A page read of the record the run has issued, b answers having been used before. -/
theorem RunAt.record {s d t : State} {i : Instr} {p q : RetryPt} {bulk : Bulk} {es : List Event} {a : Reg}
    {b k N : Nat} {x : Phase} (h : RunAt s d i p bulk es b (lastSrAt s k))
    (hrun : IssueRun N d t q x .success (recordEvents d a 0) (1 + d.cfg.recWords) (lastSrAt d 0)) :
    RunAt s t i q { bulk with lastResult := .success, phase := x } (es ++ recordEvents s a b) (b + (1 + s.cfg.recWords))
      (lastSrAt s b) := by
  have hev : recordEvents d a 0 = recordEvents s a b := recordEvents_after (h.observed.span h.cfg) a 0
  have hsr : lastSrAt d 0 = lastSrAt s b := lastSrAt_after h.observed h.cfg (by rw [h.st]) 0
  rw [hev, hsr, h.cfg] at hrun
  exact h.issue hrun

/-- Execute of a read unit in a run. -/
theorem RunAt.read {s d : State} {i : Instr} {bulk : Bulk} {es : List Event} {b k : Nat} (hwf : s.cfg.wf = true)
    (h : RunAt s d i .execute bulk es b (lastSrAt s k)) (hm : bulk.mode = .read) (hx : s.st.session = .none)
    (hready : readyAt s b = true) : let n := s.cfg.recWords
    ∃ t, RunAt s t i .executed { bulk with lastResult := .success, phase := .execute }
        (es ++ recordEvents s (pageUnitAddr s.cfg bulk.unit) b) (b + (1 + n)) (lastSrAt s b)
      ∧ WordsRead s (b + 1) n d.bufA t.bufA ∧ t.bufC = d.bufC ∧ ∃ k ≤ 2 * n + 24, Reach k d t := by
  intro n
  have after := h.observed.span h.cfg
  obtain ⟨t, hrun, -, hwords, hC⟩ := (issues_read (h.cfg ▸ hwf) h.pc (by rw [h.bulk]; exact hm)
    (h.session.trans hx)).pageRead (h.cfg ▸ hwf) ((readyAt_after after 0).trans hready)
  have hat := h.record hrun
  have hreach := hrun.reach
  rw [h.bulk, h.cfg] at hat
  rw [h.cfg] at hwords hreach
  exact ⟨t, hat, hwords.shift fun j => answer_after after j, hC, hreach⟩

/-- The verify of a read unit in a run. -/
theorem RunAt.verify {s e : State} {i : Instr} {bulk : Bulk} {es : List Event} {b k : Nat} (hwf : s.cfg.wf = true)
    (h : RunAt s e i .executed bulk es b (lastSrAt s k)) (hm : bulk.mode = .read) (hr : bulk.lastResult = .success)
    (hv : s.cfg.readVerify = true) (hx : s.st.session = .none) (hready : readyAt s b = true) : let n := s.cfg.recWords
    ∃ t, RunAt s t i .verified { bulk with lastResult := .success, phase := .verify }
        (es ++ recordEvents s (pageUnitAddr s.cfg bulk.unit) b) (b + (1 + n)) (lastSrAt s b)
      ∧ WordsRead s (b + 1) n e.bufC t.bufC ∧ t.bufA = e.bufA ∧ ∃ k ≤ 2 * n + 24, Reach k e t := by
  intro n
  have after := h.observed.span h.cfg
  have happlies : verifyApplies e = true := by simp [verifyApplies, h.bulk, hm, h.cfg, hv]
  have hphase : verifyPhase e.bulk = .verify := if_pos (by rw [h.bulk]; exact hm)
  obtain ⟨t, hrun, -, hwords, hA⟩ := (issues_verify (h.cfg ▸ hwf) h.pc (by rw [h.bulk]; exact hr)
    (h.session.trans hx) happlies).pageReadC (h.cfg ▸ hwf) ((readyAt_after after 0).trans hready)
  have hat := h.record hrun
  have hreach := hrun.reach
  rw [hphase, h.bulk, h.cfg] at hat
  rw [h.cfg] at hwords hreach
  exact ⟨t, hat, hwords.shift fun j => answer_after after j, hA, hreach⟩

theorem four_opBudget_le_budget (s : State) : 4 * opBudget s.cfg ≤ budget s := by
  rw [budget, Nat.mul_comm 4, Nat.mul_assoc 4]
  exact Nat.mul_le_mul_left _ (Nat.le_mul_of_pos_right 4 (by positivity))

/-- From t, where a read unit of the run of i, requested in s, is over, the run has come to its Drain in u (R273): the
cycles es were made, answered by `used` answers, LAST_SR is sr, and both buffers are as in t. -/
structure Drained (s t u : State) (i : Instr) (bulk : Bulk) (es : List Event) (used : Nat) (sr : Byte) : Prop where
  frame : RunFrame s u i
  holds : RunHolds s u false .drainHold
  observed : Observed s u es used
  bulk : u.bulk = { bulk with phase := .drain, streamReq := true, streamDir := false }
  lastSr : u.st.lastSr = sr
  bufA : u.bufA = t.bufA
  bufC : u.bufC = t.bufC

/-- A run whose read unit is over waits for the host at its Drain. -/
theorem RunAt.drains {s t : State} {i : Instr} {p : RetryPt} {bulk : Bulk} {es : List Event} {used k : Nat} {sr : Byte}
    {body : Config → Cur → List Micro} (h : RunAt s t i p bulk es used sr) (hm : bulk.mode = .read)
    (ha : bulk.abortReq = false) (hs : Startable s .none)
    (hreach : Reach k (startOp i.opcode i.lastFlag body s) (unitOver t)) (hk : k ≤ 4 * opBudget s.cfg) :
    Drained s t (request i.opcode i.lastFlag body s) i bulk es used sr := by
  let u := requestStream false .drain .drainHold t
  have hover : unitOver t = u := if_pos (by rw [h.bulk]; exact hm)
  have hat : RunAt s u i .drainHold { t.bulk with phase := .drain, streamDir := false, streamReq := true } es used sr :=
    h.move _ _
  rw [h.bulk] at hat
  obtain ⟨frame, st, hbulk, obs, pc, -, ceN⟩ := hat
  have hholds : holding u = true := by simp [holding, hbulk, ha]
  rw [hover] at hreach
  rw [request_reaches hs hreach (moves_of_holding (.inr pc) hholds)
    (hk.trans (four_opBudget_le_budget (startOp i.opcode i.lastFlag body s)))]
  exact ⟨frame, ⟨by rw [st], by rw [st], by rw [st], pc, by rw [hbulk], by rw [hbulk], hholds, ceN⟩, obs, hbulk,
    by rw [st], rfl, rfl⟩

/-- With READ_VERIFY = 0 a read unit is over when its page read has passed (R267). -/
theorem RunAt.drains_unverified {s e : State} {i : Instr} {bulk : Bulk} {es : List Event} {used k : Nat} {sr : Byte}
    {body : Config → Cur → List Micro} (h : RunAt s e i .executed bulk es used sr) (hm : bulk.mode = .read)
    (hr : bulk.lastResult = .success) (ha : bulk.abortReq = false) (hv : s.cfg.readVerify = false)
    (hs : Startable s .none) (hreach : Reach k (startOp i.opcode i.lastFlag body s) e) (hk : k < 4 * opBudget s.cfg) :
    Drained s e (request i.opcode i.lastFlag body s) i bulk es used sr := by
  have happlies : verifyApplies e = false := by simp [verifyApplies, h.bulk, hm, h.cfg, hv]
  have hcheck : Reach 1 e (executedCheck e) := reach_retryStep h.pc (by decide) (by decide)
  rw [executedCheck_over (by rw [h.bulk]; exact hr) (by simp [h.bulk, hm]) happlies] at hcheck
  exact h.drains hm ha hs (hreach.trans hcheck) hk

/-- A comparison of the buffers moves nothing of a run (log 4). -/
theorem RunAt.compared {s t : State} {i : Instr} {p : RetryPt} {bulk : Bulk} {es : List Event} {used : Nat} {sr : Byte}
    (h : RunAt s t i p bulk es used sr) : RunAt s (takeFree t) i p bulk es used sr :=
  ⟨h.frame, h.st, h.bulk, h.observed, h.pc, h.resume, h.ceN⟩

/-- A BULK_READ comes to the CheckResult of its first unit, the record read into buffer A. -/
theorem run_read {s : State} {l : Bool} (hwf : s.cfg.wf = true) (hs : Startable s .none) (hcount : s.regs.bulkCount ≠ 0)
    (hready : readyAt s 0 = true) (hid : IdentityOk s 1) (hready' : readyAt s (1 + s.cfg.idBytes) = true)
    (hid' : IdentityOk s (2 + s.cfg.idBytes)) (hready'' : readyAt s (2 + 2 * s.cfg.idBytes) = true) :
    let b := 2 + 2 * s.cfg.idBytes
    let n := s.cfg.recWords
    ∃ body e, exec (.bulkRead l) s = .next (request 0x60 l body s)
      ∧ RunAt s e (.bulkRead l) .executed { runStarted s .read with phase := .execute }
          (readIdEvents s 0 ++ readIdEvents s (1 + s.cfg.idBytes)
            ++ recordEvents s (pageUnitAddr s.cfg s.regs.bulkStart) b) (b + (1 + n)) (lastSrAt s b)
      ∧ WordsRead s (b + 1) n s.bufA e.bufA ∧ e.bufC = s.bufC
      ∧ ∃ k ≤ 2 * n + 79, Reach k (startOp 0x60 l body s) e := by
  intro b n
  obtain ⟨body, a, hexec, hrun, hcap, hbufs, k1, hk1, hreach1⟩ := run_captured (i := .bulkRead l) hwf hs rfl hready hid
  rw [if_neg hcount] at hrun
  obtain ⟨d, hexecute, -, ⟨hA, hC⟩, k2, hk2, hreach2⟩ :=
    run_execute (m := .read) hwf (by decide) hs.session hcount hid hready' hid' hrun hcap hbufs
  obtain ⟨e, hread, hwords, hC', k3, hk3, hreach3⟩ := hexecute.read hwf rfl hs.session hready''
  rw [hA] at hwords
  exact ⟨body, e, hexec, hread, hwords, hC'.trans hC, k1 + k2 + k3, by omega, (hreach1.trans hreach2).trans hreach3⟩

/-- Two reads of the record that agree, one into each buffer, do not differ. -/
theorem buffersDiffer_of_same_words {s t : State} {b v n : Nat} {bufA bufC : List (Nat × Word)}
    (hA : WordsRead s b n bufA t.bufA) (hC : WordsRead s v n bufC t.bufC)
    (hsame : ∀ i < n, answer s (v + i) = answer s (b + i)) : buffersDiffer t n = false := by
  obtain ⟨hinA, -⟩ := hA
  obtain ⟨hinC, -⟩ := hC
  rw [buffersDiffer_eq_false_iff]
  intro i hi
  rw [memRead, cRead, hinA i hi, hinC i hi, hsame i hi]
  rfl

/-- A verify whose words agree with those of the read ends the unit (R268). -/
theorem RunAt.drains_verified {s f : State} {i : Instr} {bulk : Bulk} {es : List Event} {used b v k : Nat} {sr : Byte}
    {body : Config → Cur → List Micro} {bufA bufC : List (Nat × Word)} (h : RunAt s f i .verified bulk es used sr)
    (hm : bulk.mode = .read) (hr : bulk.lastResult = .success) (ha : bulk.abortReq = false)
    (hA : WordsRead s b s.cfg.recWords bufA f.bufA) (hC : WordsRead s v s.cfg.recWords bufC f.bufC)
    (hsame : ∀ i < s.cfg.recWords, answer s (v + i) = answer s (b + i)) (hs : Startable s .none)
    (hreach : Reach k (startOp i.opcode i.lastFlag body s) f) (hk : k < 4 * opBudget s.cfg) :
    Drained s f (request i.opcode i.lastFlag body s) i bulk es used sr := by
  have hagree : buffersDiffer f f.cfg.recWords = false := by
    rw [h.cfg]
    exact buffersDiffer_of_same_words hA hC hsame
  have hcompare : Reach 1 f (verifiedCheck f) := reach_retryStep h.pc (by decide) (by decide)
  rw [verifiedCheck_agrees (by rw [h.bulk]; exact hr) hagree] at hcompare
  obtain ⟨frame, holds, obs, bulk, sr, hA', hC'⟩ := h.compared.drains hm ha hs (hreach.trans hcompare) hk
  exact ⟨frame, holds, obs, bulk, sr, hA', hC'⟩

/-- Settles O50: capture, one validation and one page read come to CheckResult; with no verify, or one whose words
agree, the unit is over and the run holds at its Drain; and Execute issues a PAGE_READ. -/
theorem bulkReadDrains : Obligations.BulkReadDrains := by
  refine ⟨fun s l hwf hs hcount hready hid hready' hid' hready'' => ?_, fun s hwf hpc hm hx => ?_⟩
  · intro b n v setup es
    obtain ⟨hbuf, -, -, -, hrec⟩ := wf_bounds hwf
    obtain ⟨body, e, hexec, hrun, hwordsA, hC, k, hk, hreach⟩ :=
      run_read (l := l) hwf hs hcount hready hid hready' hid' hready''
    have hused : b + (1 + n) = v := by omega
    have hes : readIdEvents s 0 ++ readIdEvents s (1 + s.cfg.idBytes)
        ++ recordEvents s (pageUnitAddr s.cfg s.regs.bulkStart) b = es := by
      simp only [es, recordEvents, setup, List.append_assoc]
      rfl
    rw [hused, hes] at hrun
    rw [hexec]
    cases hv : s.cfg.readVerify with
    | false =>
      obtain ⟨frame, holds, obs, bulk, sr, hA, hC'⟩ :=
        hrun.drains_unverified rfl rfl rfl hv hs hreach (by unfold opBudget; omega)
      rw [← hA] at hwordsA
      obtain ⟨hin, hout⟩ := hwordsA
      have hC'' := hC'.trans hC
      exact ⟨_, rfl, fun _ => ⟨frame, holds, hin, fun i hi => ⟨hout i hi, congrArg (cellGet i) hC''⟩, bulk⟩,
        fun _ => ⟨obs, sr, hC''⟩, nofun⟩
    | true =>
      by_cases hsame : readyAt s v = true ∧ ∀ i < n, answer s (v + 1 + i) = answer s (b + 1 + i)
      · obtain ⟨f, hverify, hwordsC, hA, k', hk', hreach'⟩ := hrun.verify hwf rfl rfl hv hs.session hsame.1
        rw [hC] at hwordsC
        rw [← hA] at hwordsA
        obtain ⟨frame, holds, obs, bulk, sr, hA', hC'⟩ := hverify.drains_verified rfl rfl rfl hwordsA hwordsC hsame.2 hs
          (hreach.trans hreach') (by unfold opBudget; omega)
        rw [← hA'] at hwordsA
        rw [← hC'] at hwordsC
        obtain ⟨hinA, houtA⟩ := hwordsA
        obtain ⟨hinC, houtC⟩ := hwordsC
        have hused' : v + (1 + n) = v + 1 + n := by omega
        rw [hused', recordEvents, ← List.append_assoc, ← List.append_assoc] at obs
        exact ⟨_, rfl, fun _ => ⟨frame, holds, hinA, fun i hi => ⟨houtA i hi, houtC i hi⟩, bulk⟩, nofun,
          fun _ _ _ => ⟨obs, sr, hinC⟩⟩
      · exact ⟨_, rfl, fun h => absurd (h.resolve_left (by simp)) hsame, nofun, fun _ hr hw => absurd ⟨hr, hw⟩ hsame⟩
  · intro n
    have hissue := issues_read hwf hpc hm hx
    cases hready : readyAt s 0 with
    | false =>
      obtain ⟨t, hrun, hids, hA, hC⟩ := hissue.busy (by simp only [seqPageRead, List.append_assoc]; rfl) hready
      obtain ⟨k, -, hreach⟩ := hrun.reach
      exact ⟨k, t, hreach 0, hC, hrun.phase, fun _ => ⟨hrun.issued_same hids, hA⟩, nofun⟩
    | true =>
      obtain ⟨t, hrun, hids, hwords, hC⟩ := hissue.pageRead hwf hready
      obtain ⟨k, -, hreach⟩ := hrun.reach
      exact ⟨k, t, hreach 0, hC, hrun.phase, nofun, fun _ => ⟨hrun.issued_same hids, hwords⟩⟩

end Sys2Proof.Machine

/-! Requests that the checks end (R305 to R308, R310), and which operations can return an open session to NONE
(R305). -/

namespace Sys2Proof.Machine

/-! ### The tables by operation and by code (R301, R305) -/

/-- The session's check by code is R305's table of operations. -/
theorem sessionAdmits_opcode (x : Session) (i : Instr) : sessionAdmits x i.opcode = admittedIn x i := by
  cases x with
  | none => cases i <;> rfl
  | rprog | cread | plane1Prog | plane1Erase => cases i <;> simp [admittedIn, Instr.lastFlag] <;> rfl

theorem usesLen_opcode (i : Instr) : usesLen i.opcode = lenOperation i := by cases i <;> rfl

/-- The one code that a configuration can lack is READ_STATUS_ENH's (R103). -/
theorem legalOp_opcode {i : Instr} (h : ∀ l, i ≠ .readStatusEnh l) (c : Config) : legalOp c i.opcode = true := by
  cases i with
  | readStatusEnh l => exact absurd rfl (h l)
  | _ => rfl

/-! ### The checks that fail (R310) -/

theorem checkRequest_notAdmitted {x : Session} {cur : Cur} (h : sessionAdmits x cur.op = false) (c : Config) :
    checkRequest c x cur = some .invalidCommand := by
  cases hlegal : legalOp c cur.op with
  | false => exact checkRequest_illegal hlegal x
  | true => simp [checkRequest, hlegal, h]

theorem checkRequest_tooLong {c : Config} {x : Session} {cur : Cur} (hlegal : legalOp c cur.op = true)
    (hadmits : sessionAdmits x cur.op = true) (huses : usesLen cur.op = true) (hlen : c.bufWords < cur.len.toNat) :
    checkRequest c x cur = some .invalidData := by
  simp [checkRequest, hlegal, hadmits, huses, hlen]

theorem checkRequest_unaligned {c : Config} {cur : Cur} (hop : cur.op = 0x12#8) (hcol : col c cur.addr ≠ 0#16) :
    checkRequest c .none cur = some .invalidAddress := by
  have hlegal : legalOp c 0x12#8 = true := rfl
  have hadmits : sessionAdmits .none 0x12#8 = true := rfl
  have huses : usesLen 0x12#8 = false := rfl
  simp [checkRequest, hop, hlegal, hadmits, huses, hcol]

theorem exec_refused {s : State} {x : Session} {i : Instr} {r : Result} (hs : Startable s x)
    (hc : checkRequest s.cfg x (latchRequest i.opcode i.lastFlag s) = some r) :
    ∃ t, exec i s = .next t ∧ Refused s t i.opcode i.lastFlag r x := by
  obtain ⟨body, hexec⟩ := exec_eq_request i
  rw [← hs.session] at hc
  exact ⟨_, hexec s, request_refusedAs hs hc⟩

/-- Settles O43: the session's check fails, if the check of the code has not. -/
theorem sessionRefuses : Obligations.SessionRefuses := by
  intro s x i _ hs hadmitted
  exact exec_refused hs (checkRequest_notAdmitted ((sessionAdmits_opcode x i).trans hadmitted) s.cfg)

/-- Settles O45: every configuration has the operations that use LEN, so the check of LEN is the first to fail. -/
theorem lenRefused : Obligations.LenRefused := by
  intro s x i _ hs hadmitted hlen hlong
  have hlegal : legalOp s.cfg i.opcode = true := legalOp_opcode (by rintro l rfl; cases hlen) s.cfg
  rw [← sessionAdmits_opcode] at hadmitted
  rw [← usesLen_opcode] at hlen
  exact exec_refused hs (checkRequest_tooLong hlegal hadmitted hlen (by rwa [latchRequest_len]))

/-- Settles O46: the check of the column fails, before the busy check. -/
theorem addrRefused : Obligations.AddrRefused := fun _ l _ hs hcol =>
  exec_refused (i := .cacheReadBegin l) hs (checkRequest_unaligned rfl hcol)

/-! ### Sequences that leave the session alone (R40) -/

/-- A plain micro-operation other than `session <- x`. -/
def actsBesideSession : Micro → Bool
  | .act (.setSession _) => false
  | .act _ => true
  | .check | .raiseUnlessReady _ | .raiseIfFailed _ | .pollAgain | .startBulk _ => false

theorem exists_act_of_actsBesideSession {m : Micro} (h : actsBesideSession m = true) :
    ∃ a, m = .act a ∧ ∀ s, (applyAct a s).st.session = s.st.session := by
  cases m with
  | act a =>
    refine ⟨a, rfl, fun s => ?_⟩
    cases a with
    | setSession x => cases h
    | _ => rfl
  | check | raiseUnlessReady | raiseIfFailed | pollAgain | startBulk => cases h

theorem seqCmd_besideSession (c : Byte) : (seqCmd c).all actsBesideSession = true := rfl

theorem seqAddrs_besideSession (bs : List Byte) : (seqAddrs bs).all actsBesideSession = true := by
  induction bs with
  | nil => rfl
  | cons b bs ih => exact ih

theorem seqRun_besideSession (d : Dir) {a : Act} (ha : actsBesideSession (.act a) = true) (n : Nat) :
    (seqRun d a n).all actsBesideSession = true := by
  induction n with
  | zero => rfl
  | succ n ih => simp only [seqRun, List.all_cons, ha, ih]; rfl

/-- RPROG_INPUT keeps its session (R212). -/
theorem seqRprogInput_besideSession (c : Config) (cur : Cur) :
    (seqRprogInput c cur).all actsBesideSession = true := by
  simp only [seqRprogInput, List.all_append, seqCmd_besideSession, seqAddrs_besideSession, Bool.true_and]
  exact seqRun_besideSession .out rfl _

/-- CACHE_READ_CONT keeps its session unless L = 1 (R193). -/
theorem seqCacheReadCont_besideSession (c : Config) {cur : Cur} (hl : cur.l = false) :
    (seqCacheReadCont c cur).all actsBesideSession = true := by
  have hread : (seqReadWords cur.len.toNat).all actsBesideSession = true := seqRun_besideSession .inn rfl _
  simp [seqCacheReadCont, hl, seqCmd_besideSession, hread, actsBesideSession]

/-! ### Requests that leave the session alone (R305) -/

/-- A host operation that has ended stays ended (R300, R36). -/
theorem drive_endOp_session {s : State} (hr : s.seq.resume = none) (r : Result) (n : Nat) :
    (drive n (endOp r s)).st.session = s.st.session := by
  rw [drive_still (moves_endOp hr), endOp_host hr]

/-- However far such a sequence of a host operation has run, the session is as it was. -/
theorem drive_atK_session {k : List Micro} {s : State} (hk : k.all actsBesideSession = true)
    (hr : s.seq.resume = none) (op : Byte) (n : Nat) : (drive n (atK op k s)).st.session = s.st.session := by
  induction k generalizing s n with
  | nil =>
    cases n with
    | zero => rfl
    | succ n => rw [Nat.add_comm, reach_end op s n, drive_endOp_session hr]
  | cons m k ih =>
    cases n with
    | zero => rfl
    | succ n =>
      rw [List.all_cons, Bool.and_eq_true] at hk
      obtain ⟨a, rfl, ha⟩ := exists_act_of_actsBesideSession hk.1
      obtain ⟨-, -, -, -, -, -, -, hresume, -⟩ := applyAct_keeps a s
      rw [Nat.add_comm, reach_act op a k s n, ih hk.2 (hresume.trans hr), ha]

/-- The same from the checks on, whether they end the operation or not. -/
theorem drive_check_session {k : List Micro} {s : State} (hr : s.seq.resume = none)
    (hk : checkRequest s.cfg s.st.session s.seq.cur = none → k.all actsBesideSession = true) (op : Byte) (n : Nat) :
    (drive n (atK op (.check :: k) s)).st.session = s.st.session := by
  cases n with
  | zero => rfl
  | succ n =>
    rw [Nat.add_comm]
    cases hc : checkRequest s.cfg s.st.session s.seq.cur with
    | none => rw [reach_check hc n, drive_atK_session (hk hc) hr]
    | some r => rw [reach_checkFails hc n, drive_endOp_session hr]

/-- The block's turn is a run, of no micro-operation where an access or RST is due (R9). -/
theorem advance_eq_drive (s : State) : ∃ n r, advance s = drive n (setInputs r s) := by
  unfold advance
  split
  case h_4 n r _ => exact ⟨n, r, rfl⟩
  case h_5 | h_6 => exact ⟨0, s.env.inputs, rfl⟩
  all_goals exact ⟨budget s, s.env.inputs, rfl⟩

theorem request_session {s : State} {op : Byte} {l : Bool} {body : Config → Cur → List Micro}
    (hr : s.st.busy = false → s.seq.resume = none)
    (hbody : checkRequest s.cfg s.st.session (latchRequest op l s) = none →
      (body s.cfg (latchRequest op l s)).all actsBesideSession = true) :
    (request op l body s).st.session = s.st.session := by
  unfold request
  split
  · rfl
  · rename_i hbusy
    obtain ⟨n, r, hrun⟩ := advance_eq_drive (startOp op l body s)
    rw [hrun]
    exact drive_check_session (s := setInputs r (startOp op l body s)) (hr (by simpa using hbusy)) hbody op n

/-! ### The operations that end a session (R305) -/

/-- An open session admits, beside the operations that end it, two that keep it. -/
theorem admitted_keeping {x : Session} {i : Instr} (hx : x ≠ .none) (ha : admittedIn x i = true)
    (hc : closesSession i = false) : (∃ l, i = .rprogInput l) ∨ i = .cacheReadCont false := by
  cases x with
  | none => exact absurd rfl hx
  | rprog =>
    obtain h | h := of_decide_eq_true ha
    · exact .inl ⟨_, h⟩
    · rw [h] at hc; cases hc
  | cread =>
    have h : i = .cacheReadCont i.lastFlag := of_decide_eq_true ha
    have hl : i.lastFlag = false := by rw [h] at hc; exact hc
    exact .inr (hl ▸ h)
  | plane1Prog => obtain h | h := of_decide_eq_true ha <;> rw [h] at hc <;> cases hc
  | plane1Erase =>
    have h : i = .tpEraseP2 i.lastFlag := of_decide_eq_true ha
    rw [h] at hc; cases hc

/-- An idle block has no internal operation open (R313). -/
theorem Inv.resume_of_idle {s : State} (h : Inv s) (hidle : s.st.busy = false) : s.seq.resume = none := by
  obtain ⟨-, ⟨busy, -, resume⟩, -⟩ := h
  by_contra hr
  obtain ⟨op, k, hpc⟩ := resume hr
  cases (busy.1 hidle).symm.trans hpc

theorem exec_session {s t : State} {i : Instr} (h : Inv s) (ht : exec i s = .next t) (hx : s.st.session ≠ .none)
    (hc : closesSession i = false) : t.st.session = s.st.session := by
  cases ha : admittedIn s.st.session i with
  | false =>
    obtain ⟨body, hexec⟩ := exec_eq_request i
    cases (hexec s).symm.trans ht
    rw [← sessionAdmits_opcode] at ha
    exact request_session h.resume_of_idle fun hpass => nomatch (checkRequest_notAdmitted ha s.cfg).symm.trans hpass
  | true =>
    obtain ⟨l, rfl⟩ | rfl := admitted_keeping hx ha hc
    · cases ht
      exact request_session h.resume_of_idle fun _ => seqRprogInput_besideSession _ _
    · cases ht
      exact request_session h.resume_of_idle fun _ => seqCacheReadCont_besideSession _ rfl

/-- Settles O59: an open session admits only operations that end it or keep it, and any other operation is
refused, which keeps it too. -/
theorem sessionClosers : Obligations.SessionClosers := by
  intro s t i h ht hx hnone
  by_contra hc
  exact hx ((exec_session h ht hx (by simpa using hc)).symm.trans hnone)

end Sys2Proof.Machine

/-! The RST input (R340). -/

namespace Sys2Proof.Machine

/-- RST is looked at before the block's state is: of the state, only the configuration can stop it. -/
theorem fetch_rst {s : State} {r : List Input} (hwf : s.cfg.wf = true) (hin : s.env.inputs = .rst :: r) :
    fetch s = .go (assertReset (setInputs r s)) := by
  simp [fetch, hwf, hin]

theorem assertReset_setInputs (r : List Input) (s : State) :
    assertReset (setInputs r s) = { resetOf s.cfg with env := { s.env with inputs := r } } := rfl

/-- Settles O8: the fetch hands on the reset state, whatever the block is doing. -/
theorem rstStep : Obligations.RstStep := by
  intro s r hwf hin
  rw [step_of_fetch_go (fetch_rst hwf hin), assertReset_setInputs]

end Sys2Proof.Machine
